-- ==== Sys2Proof/Word.lean ====
section
/-! DEFINITION. The word types of the FG-540: bytes of the serial lines, 16-bit and 32-bit fields. -/

namespace Sys2Proof

/-- One byte of a serial line. -/
abbrev Byte := BitVec 8

/-- A 16-bit field: rates, counters, serials, stored words. -/
abbrev Half := BitVec 16

/-- A 32-bit field: angles (arc units, two's complement), loop frame numbers. -/
abbrev Word := BitVec 32

end Sys2Proof
end

