-- ==== Sys2Proof/Machine/Bytes.lean ====
section
/-! DEFINITION. Byte order and the two CRCs: multi-byte fields are most significant byte first on every line (00, Conventions). -/

namespace Sys2Proof.Machine

/-- The two bytes of a 16-bit field, most significant first. -/
def halfBytes (x : Half) : List Byte :=
  [x.extractLsb' 8 8, x.extractLsb' 0 8]

/-- The four bytes of a 32-bit field, most significant first. -/
def wordBytes (x : Word) : List Byte :=
  [x.extractLsb' 24 8, x.extractLsb' 16 8, x.extractLsb' 8 8, x.extractLsb' 0 8]

/-- The 16-bit field sent as `a`, then `b`. -/
def halfOf (a b : Byte) : Half := a ++ b

/-- The 32-bit field sent as `a`, `b`, `c`, `d`. -/
def wordOf (a b c d : Byte) : Word := halfOf a b ++ halfOf c d

/-- One byte holding the number `n` modulo 256. -/
def byteOf (n : Nat) : Byte := BitVec.ofNat 8 n

/-- A 16-bit field holding `n` modulo 65,536. -/
def halfOfNat (n : Nat) : Half := BitVec.ofNat 16 n

/-- A 32-bit field holding `n` modulo 2^32. -/
def wordOfNat (n : Nat) : Word := BitVec.ofNat 32 n

/-- A flag as bit `i` of a byte. -/
def flagBit (i : Nat) (b : Bool) : Byte := if b then byteOf (2 ^ i) else 0

/-- `n` shifts of the CRC-8 register, generator 0x07 (R2). -/
def crc8Shift : Nat → Byte → Byte
  | 0, r => r
  | n + 1, r => crc8Shift n (if r.msb then (r <<< 1) ^^^ 0x07 else r <<< 1)

/-- The CRC-8 of the SEN, ENC and DRV lines (R2): register from 0x00, most significant bit first, no reflection,
no final inversion. -/
def crc8 (bytes : List Byte) : Byte :=
  bytes.foldl (fun r b => crc8Shift 8 (r ^^^ b)) 0

/-- `n` shifts of the CRC-16 register, generator 0x1021 (R161). -/
def crc16Shift : Nat → Half → Half
  | 0, r => r
  | n + 1, r => crc16Shift n (if r.msb then (r <<< 1) ^^^ 0x1021 else r <<< 1)

/-- The CRC-16 of the Console Link (R161): register from 0xFFFF, most significant bit first, no reflection, no final
inversion. -/
def crc16 (bytes : List Byte) : Half :=
  bytes.foldl (fun r b => crc16Shift 8 (r ^^^ (b ++ (0 : Byte)))) 0xFFFF

/-- The bytes a frame's CRC-16 covers: length, kind, tag, payload (R161). -/
def coveredBytes (kind tag : Byte) (payload : List Byte) : List Byte :=
  halfBytes (halfOfNat payload.length) ++ [kind, tag] ++ payload

end Sys2Proof.Machine
end

