-- ==== Sys2Proof/Syntax.lean ====
section
/-! DEFINITION. The commands of the FG-540: one constructor of `Instr` per row of spec/opcode_table.json, with the row's
operands; and the console's requests as their payload fields stand on the wire (09, section 9.9). -/

namespace Sys2Proof

/-- The five controlled joints, index 0..4 in this order (02, section 2.1). -/
inductive Axis where
  | swing | lift | pan | tilt | roll
deriving DecidableEq, Repr

/-- The three inertial units, on SEN0, SEN1, SEN2 (chapter 1). -/
inductive SenUnit where
  | base | tip | head
deriving DecidableEq, Repr

/-- The lines that carry records into the part: SEN0..2, ENC0..4, DRV0..4. -/
inductive RecordPort where
  | sen (u : SenUnit)
  | enc (a : Axis)
  | drv (a : Axis)
deriving DecidableEq, Repr

/-- The ports with a staleness timer (R6): the three inertial units and the five encoders. -/
inductive StalePort where
  | sen (u : SenUnit)
  | enc (a : Axis)
deriving DecidableEq, Repr

/-- The two trigger lines, TRIG0 and TRIG1. -/
inductive TrigLine where
  | trig0 | trig1
deriving DecidableEq, Repr

/-- The input lines whose changes of level the row TRIGGER_LINE_CHANGE carries: the two trigger lines, and PROT_N, for whose changes the
table has no row (DESIGN CHOICE: notes/assumptions/9.md). -/
inductive InputLine where
  | trig (line : TrigLine)
  | protN
deriving DecidableEq, Repr

/-- The levels of the level-carrying input pins at one moment; `true` is high. -/
structure Pins where
  killN : Bool
  trig0 : Bool
  trig1 : Bool
  protN : Bool
deriving DecidableEq, Repr

/-- A waypoint record as sent (09, Waypoint record): presence mask, one offset per axis present, label. -/
structure WptRecord where
  mask : Byte
  offsets : List Word
  label : Byte
deriving DecidableEq, Repr

/-- A queue entry as sent (09, Queue entries), its fields not yet judged (R71). -/
inductive RawEntry where
  | goto (tag mask slot : Byte) (dn : Word) (flags : Byte)
  | shift (tag mask : Byte) (deltas : List Word) (dn : Word) (flags : Byte)
  | dwell (tag : Byte) (frames : Word)
  | wait (tag mask flags : Byte) (timeout : Word)
  | cue (tag set clear : Byte)
  | mode (tag mask target : Byte)
deriving DecidableEq, Repr

/-- One (field number, value) pair of TUNE (R33). -/
structure TunePair where
  field : Byte
  value : Word
deriving DecidableEq, Repr

/-- One source pair of CUE (R104): cue number, selector code, parameter. -/
structure CuePair where
  cue : Byte
  code : Byte
  param : Byte
deriving DecidableEq, Repr

/-- A selector as sent in SETUP: code and parameter. -/
structure RawSelector where
  code : Byte
  param : Byte
deriving DecidableEq, Repr

/-- One record of ALERT_CFG (R142): source, level, enable, kind. -/
structure CfgRecord where
  source : Byte
  level : Byte
  enable : Byte
  kind : Byte
deriving DecidableEq, Repr

/-- The fields of SETUP, each absent or present (R173; 09, Request payloads). `bit7` is the presence mask's
bit 7, which must be 0. `selectors` are those of C0..C7. -/
structure SetupFields where
  silence : Option Half
  staleBase : Option Byte
  staleTip : Option Byte
  staleHead : Option Byte
  gravBand : Option Half
  driverMiss : Option Byte
  strictLoad : Option Byte
  bit7 : Bool
  sel0 : Option RawSelector
  sel1 : Option RawSelector
  sel2 : Option RawSelector
  sel3 : Option RawSelector
  sel4 : Option RawSelector
  sel5 : Option RawSelector
  sel6 : Option RawSelector
  sel7 : Option RawSelector
deriving DecidableEq, Repr

/-- A console request whose kind and length are right (R166 steps 1 and 2), its fields as sent. One constructor per
request code of the catalogue (R180). -/
inductive Request where
  | ident (option : Byte)
  | restart
  | halt
  | run
  | step
  | setup (fields : SetupFields)
  | state (mask : Byte)
  | mode (mask target damp : Byte)
  | demand (mask : Byte) (rates : List Half)
  | tune (axis : Byte) (pairs : List TunePair)
  | tuneRead (axis copy : Byte)
  | apply (mask : Byte)
  | queueAdd (entries : List RawEntry)
  | queueCtrl (action : Byte)
  | queueRead
  | wptWrite (start : Byte) (records : List WptRecord)
  | wptRead (start count : Byte)
  | wptLock (flags : Byte)
  | cue (clear set : Byte) (pairs : List CuePair)
  | sweep (axis dlo dhi : Byte) (wn : Half) (q : Word)
  | sweepStop
  | sweepRead
  | alertRead (option : Byte)
  | alertCfg (records : List CfgRecord)
  | resolve (level : Byte)
  | alertTest (mask : Byte) (param : Half)
  | alertCancel (mask : Word)
  | storeArm (option : Byte)
  | storeSave (slot : Byte)
  | storeErase (slot : Byte)
  | storeLoad (slot : Byte)
  | storeStatus (option : Byte)
  | storeProtect (count freeze : Byte)
  | park
  | unpark
  | reportPlan (set : Byte) (interval : Half)
deriving DecidableEq, Repr

/-- The commands: one constructor per row of spec/opcode_table.json. A request row is the console's request with
its tag and payload fields (notes/assumptions/1.md). -/
inductive Instr where
  /-- POWER_ON_RESET: the supply rises; `pins` are the levels as the reset ends (R174, R101, R129). -/
  | powerOnReset (pins : Pins)
  /-- PIN_RESET: RESET_N is driven low and released. -/
  | pinReset (pins : Pins)
  /-- INERTIAL_SAMPLE_RECORD: bytes arriving on a SEN line, a complete record being 20 (R1, R3). -/
  | inertialSampleRecord (u : SenUnit) (bytes : List Byte)
  /-- ENCODER_RECORD: bytes arriving on an ENC line, a complete record being 4 (R9). -/
  | encoderRecord (a : Axis) (bytes : List Byte)
  /-- PARTIAL_RECORD_DISCARD: more than 50 µs of silence on a record line (R1). -/
  | partialRecordDiscard (port : RecordPort)
  /-- STALENESS_EXPIRY: a port's staleness timer reaches its limit (R6). -/
  | stalenessExpiry (port : StalePort)
  /-- LOOP_FRAME: the frame timer expires (R41). -/
  | loopFrame
  /-- DRIVE_WORD_SENT: a drive word's last byte goes out on the axis's DRV line (R120). -/
  | driveWordSent (a : Axis)
  /-- DRIVER_REPORT: bytes arriving on a DRV line, a complete report being 5 (R125). -/
  | driverReport (a : Axis) (bytes : List Byte)
  /-- KILL_ASSERTION: KILL_N goes low (R129). -/
  | killAssertion
  /-- KILL_RELEASE: KILL_N goes high (R130). -/
  | killRelease
  /-- TRIGGER_LINE_CHANGE: the line's level becomes `high` (R100). A change of PROT_N's level comes in this row too
  (DESIGN CHOICE: notes/assumptions/9.md). -/
  | triggerLineChange (line : InputLine) (high : Bool)
  /-- HOLD_OFF_EXPIRY: a trigger line's 2 ms hold-off runs out (R100). -/
  | holdOffExpiry (line : TrigLine)
  /-- GOOD_FRAME: a frame with a correct CRC-16 arrives on the Console Link (R165). -/
  | goodFrame (kind tag : Byte) (payload : List Byte)
  /-- LENGTH_ERROR: a start byte and two length bytes giving more than 1024 arrive (R163). -/
  | lengthError (hi lo : Byte)
  /-- CRC_ERROR: a complete frame arrives with the CRC bytes as given (R163). -/
  | crcError (kind tag : Byte) (payload : List Byte) (crcHi crcLo : Byte)
  /-- GAP: the bytes arrive and then the line is silent for more than 1 ms (R164). -/
  | gap (bytes : List Byte)
  /-- CONSOLE_FRAME_SENT: the last byte of the frame on the transmit line goes out (R168). -/
  | consoleFrameSent
  /-- SILENCE_EXPIRY: the silence timer reaches its limit (R170). -/
  | silenceExpiry
  /-- UNKNOWN_KIND: a good frame whose kind is no request code (R166). -/
  | unknownKind (kind tag : Byte) (payload : List Byte)
  | ident (tag option : Byte)
  | restart (tag : Byte)
  | halt (tag : Byte)
  | run (tag : Byte)
  | step (tag : Byte)
  | setup (tag : Byte) (fields : SetupFields)
  | state (tag mask : Byte)
  | mode (tag mask target damp : Byte)
  | demand (tag mask : Byte) (rates : List Half)
  | tune (tag axis : Byte) (pairs : List TunePair)
  | tuneRead (tag axis copy : Byte)
  | apply (tag mask : Byte)
  | queueAdd (tag : Byte) (entries : List RawEntry)
  | queueCtrlRun (tag : Byte)
  | queueCtrlPause (tag : Byte)
  | queueCtrlFlush (tag : Byte)
  | queueRead (tag : Byte)
  | wptWrite (tag start : Byte) (records : List WptRecord)
  | wptRead (tag start count : Byte)
  | wptLock (tag flags : Byte)
  | cue (tag clear set : Byte) (pairs : List CuePair)
  | sweep (tag axis dlo dhi : Byte) (wn : Half) (q : Word)
  | sweepStop (tag : Byte)
  | sweepRead (tag : Byte)
  | alertRead (tag option : Byte)
  | alertCfg (tag : Byte) (records : List CfgRecord)
  | resolveLevel2 (tag : Byte)
  | resolveLevel1 (tag : Byte)
  | alertTest (tag mask : Byte) (param : Half)
  | alertCancel (tag : Byte) (mask : Word)
  | storeArm (tag : Byte)
  | storeDisarm (tag : Byte)
  | storeSave (tag slot : Byte)
  | storeErase (tag slot : Byte)
  /-- STORE_PROTECT; `protN` is the level of the store-protect pin as the request arrives, which it then has
  (DESIGN CHOICE: notes/assumptions/9.md). -/
  | storeProtect (tag count freeze : Byte) (protN : Bool)
  | storeLoad (tag slot : Byte)
  /-- STORE_STATUS; `protN` as in STORE_PROTECT. -/
  | storeStatus (tag option : Byte) (protN : Bool)
  /-- SAVE_COMPLETION: a save's 45 ms run out (R188). -/
  | saveCompletion
  /-- ERASE_COMPLETION: an erase's 80 ms run out (R188). -/
  | eraseCompletion
  /-- PROTECT_COMPLETION: a protect's 20 ms run out (R188). -/
  | protectCompletion
  | park (tag : Byte)
  | unpark (tag : Byte)
  /-- UNPARK_SETTLING_END: the 50 ms settling period ends (R196). -/
  | unparkSettlingEnd
  | reportPlan (tag set : Byte) (interval : Half)
deriving DecidableEq, Repr

end Sys2Proof
end

