-- ==== Sys2Proof/Decode.lean ====
section
/-! DEFINITION. Decoding. `decodeTableWord` over the rows of spec/opcode_table.json that give bits (none does); the request
frames of the console, byte for byte (R166 steps 1 and 2; 09, section 9.9), with their encoder; the drive, inertial and encoder
layouts' field splits. -/

namespace Sys2Proof

/-- The command a word spells by the table's bits. No row of spec/opcode_table.json gives bits ("fields" is empty and there
is no "fixed" in all 64 rows), so no word spells a command. -/
def decodeTableWord (_nbits _w : Nat) : Option Instr := none

open Machine (halfBytes wordBytes halfOf wordOf byteOf flagBit)

/-- What the dispatcher's first two tests make of a frame (R166). -/
inductive Parsed where
  /-- The kind is no request code (UNKNOWN_KIND). -/
  | unknownKind
  /-- The payload length does not fit the kind (BAD_LENGTH). -/
  | badLength
  /-- The walk of a QUEUE_ADD met an unknown kind code (RANGE in place of BAD_LENGTH). -/
  | badEntry
  /-- Kind and length are right. -/
  | request (r : Request)
deriving DecidableEq, Repr

/-- The number of axes that bits 0..4 of a presence mask name. -/
def axisCount (mask : Byte) : Nat :=
  (mask.getLsbD 0).toNat + (mask.getLsbD 1).toNat + (mask.getLsbD 2).toNat + (mask.getLsbD 3).toNat + (mask.getLsbD 4).toNat

/-! ### Reading fields -/

/-- The next `n` 32-bit fields and the bytes after them. -/
def takeWords : Nat → List Byte → Option (List Word × List Byte)
  | 0, bs => some ([], bs)
  | n + 1, a :: b :: c :: d :: bs =>
    match takeWords n bs with
    | some (ws, rest) => some (wordOf a b c d :: ws, rest)
    | none => none
  | _ + 1, _ => none

/-- Exactly `n` 16-bit fields and nothing after them. -/
def takeHalves : Nat → List Byte → Option (List Half)
  | 0, [] => some []
  | n + 1, a :: b :: bs =>
    match takeHalves n bs with
    | some hs => some (halfOf a b :: hs)
    | none => none
  | _, _ => none

/-- Exactly `n` TUNE pairs. -/
def takeTunePairs : Nat → List Byte → Option (List TunePair)
  | 0, [] => some []
  | n + 1, f :: a :: b :: c :: d :: bs =>
    match takeTunePairs n bs with
    | some ps => some (⟨f, wordOf a b c d⟩ :: ps)
    | none => none
  | _, _ => none

/-- Exactly `n` CUE source pairs. -/
def takeCuePairs : Nat → List Byte → Option (List CuePair)
  | 0, [] => some []
  | n + 1, q :: c :: p :: bs =>
    match takeCuePairs n bs with
    | some ps => some (⟨q, c, p⟩ :: ps)
    | none => none
  | _, _ => none

/-- Exactly `n` ALERT_CFG records. -/
def takeCfgRecords : Nat → List Byte → Option (List CfgRecord)
  | 0, [] => some []
  | n + 1, a :: l :: e :: k :: bs =>
    match takeCfgRecords n bs with
    | some rs => some (⟨a, l, e, k⟩ :: rs)
    | none => none
  | _, _ => none

/-- Exactly `n` waypoint records; the length of each is taken from bits 0..4 of its mask (09, Waypoint record). -/
def takeWptRecords : Nat → List Byte → Option (List WptRecord)
  | 0, [] => some []
  | n + 1, m :: bs =>
    match takeWords (axisCount m) bs with
    | some (ws, label :: rest) =>
      match takeWptRecords n rest with
      | some rs => some (⟨m, ws, label⟩ :: rs)
      | none => none
    | _ => none
  | _, _ => none

/-- The kind codes of the queue entries (09, Queue entries). -/
def knownEntryKind (k : Byte) : Bool := 1 ≤ k.toNat && k.toNat ≤ 6

/-- One queue entry from its bytes: the entry and the bytes after it, or nothing when they do not suffice. -/
def takeEntry : List Byte → Option (RawEntry × List Byte)
  | k :: tag :: bs =>
    match k.toNat, bs with
    | 1, m :: w :: a :: b :: c :: d :: f :: rest => some (.goto tag m w (wordOf a b c d) f, rest)
    | 2, m :: bs' =>
      match takeWords (axisCount m) bs' with
      | some (ws, a :: b :: c :: d :: f :: rest) => some (.shift tag m ws (wordOf a b c d) f, rest)
      | _ => none
    | 3, a :: b :: c :: d :: rest => some (.dwell tag (wordOf a b c d), rest)
    | 4, m :: f :: a :: b :: c :: d :: rest => some (.wait tag m f (wordOf a b c d), rest)
    | 5, s :: c :: rest => some (.cue tag s c, rest)
    | 6, m :: t :: rest => some (.mode tag m t, rest)
    | _, _ => none
  | _ => none

/-- What the walk of a QUEUE_ADD finds (R166 step 2). -/
inductive EntryWalk where
  | entries (es : List RawEntry)
  | unknownEntry
  | wrongLength
deriving DecidableEq, Repr

/-- The walk of `n` entries by their kind codes; an unknown kind code ends it. -/
def walkEntries : Nat → List Byte → EntryWalk
  | 0, [] => .entries []
  | 0, _ :: _ => .wrongLength
  | _ + 1, [] => .wrongLength
  | n + 1, k :: bs =>
    if knownEntryKind k then
      match takeEntry (k :: bs) with
      | none => .wrongLength
      | some (e, rest) =>
        match walkEntries n rest with
        | .entries es => .entries (e :: es)
        | w => w
    else .unknownEntry

/-- A field of SETUP: read when its presence bit is set. -/
def takeOptByte (present : Bool) : List Byte → Option (Option Byte × List Byte)
  | bs => if present then (match bs with | a :: rest => some (some a, rest) | [] => none) else some (none, bs)

def takeOptHalf (present : Bool) : List Byte → Option (Option Half × List Byte)
  | bs => if present then (match bs with | a :: b :: rest => some (some (halfOf a b), rest) | _ => none) else some (none, bs)

def takeOptSelector (present : Bool) : List Byte → Option (Option RawSelector × List Byte)
  | bs => if present then (match bs with | a :: b :: rest => some (some ⟨a, b⟩, rest) | _ => none) else some (none, bs)

/-- The fields of a SETUP after its presence mask, in bit order (09, Request payloads). -/
def takeSetup (mask : Half) (bs : List Byte) : Option SetupFields := do
  let (silence, bs) ← takeOptHalf (mask.getLsbD 0) bs
  let (staleBase, bs) ← takeOptByte (mask.getLsbD 1) bs
  let (staleTip, bs) ← takeOptByte (mask.getLsbD 2) bs
  let (staleHead, bs) ← takeOptByte (mask.getLsbD 3) bs
  let (gravBand, bs) ← takeOptHalf (mask.getLsbD 4) bs
  let (driverMiss, bs) ← takeOptByte (mask.getLsbD 5) bs
  let (strictLoad, bs) ← takeOptByte (mask.getLsbD 6) bs
  let (sel0, bs) ← takeOptSelector (mask.getLsbD 8) bs
  let (sel1, bs) ← takeOptSelector (mask.getLsbD 9) bs
  let (sel2, bs) ← takeOptSelector (mask.getLsbD 10) bs
  let (sel3, bs) ← takeOptSelector (mask.getLsbD 11) bs
  let (sel4, bs) ← takeOptSelector (mask.getLsbD 12) bs
  let (sel5, bs) ← takeOptSelector (mask.getLsbD 13) bs
  let (sel6, bs) ← takeOptSelector (mask.getLsbD 14) bs
  let (sel7, bs) ← takeOptSelector (mask.getLsbD 15) bs
  if bs.isEmpty then
    some { silence, staleBase, staleTip, staleHead, gravBand, driverMiss, strictLoad, bit7 := mask.getLsbD 7,
           sel0, sel1, sel2, sel3, sel4, sel5, sel6, sel7 }
  else none

/-- A request, or BAD_LENGTH when the fields could not be read exactly. -/
def orBadLength : Option Request → Parsed
  | some r => .request r
  | none => .badLength

/-- The dispatcher's reading of a frame: UNKNOWN_KIND, then BAD_LENGTH (R166 steps 1 and 2; codes of R180). -/
def parseRequest (kind : Byte) (payload : List Byte) : Parsed :=
  match kind.toNat with
  | 0x01 => match payload with | [o] => .request (.ident o) | _ => .badLength
  | 0x02 => match payload with | [] => .request .restart | _ => .badLength
  | 0x03 => match payload with | [] => .request .halt | _ => .badLength
  | 0x04 => match payload with | [] => .request .run | _ => .badLength
  | 0x05 => match payload with | [] => .request .step | _ => .badLength
  | 0x06 => match payload with | h :: l :: bs => orBadLength ((takeSetup (halfOf h l) bs).map .setup) | _ => .badLength
  | 0x08 => match payload with | [m] => .request (.state m) | _ => .badLength
  | 0x09 => match payload with | [m, t, d] => .request (.mode m t d) | _ => .badLength
  | 0x0A => match payload with | m :: bs => orBadLength ((takeHalves (axisCount m) bs).map (.demand m)) | _ => .badLength
  | 0x0B => match payload with | a :: n :: bs => orBadLength ((takeTunePairs n.toNat bs).map (.tune a)) | _ => .badLength
  | 0x0C => match payload with | [a, c] => .request (.tuneRead a c) | _ => .badLength
  | 0x0D => match payload with | [m] => .request (.apply m) | _ => .badLength
  | 0x10 =>
    match payload with
    | n :: bs =>
      match walkEntries n.toNat bs with
      | .entries es => .request (.queueAdd es)
      | .unknownEntry => .badEntry
      | .wrongLength => .badLength
    | _ => .badLength
  | 0x11 => match payload with | [a] => .request (.queueCtrl a) | _ => .badLength
  | 0x12 => match payload with | [] => .request .queueRead | _ => .badLength
  | 0x14 => match payload with | s :: n :: bs => orBadLength ((takeWptRecords n.toNat bs).map (.wptWrite s)) | _ => .badLength
  | 0x15 => match payload with | [s, n] => .request (.wptRead s n) | _ => .badLength
  | 0x16 => match payload with | [f] => .request (.wptLock f) | _ => .badLength
  | 0x18 => match payload with | c :: s :: n :: bs => orBadLength ((takeCuePairs n.toNat bs).map (.cue c s)) | _ => .badLength
  | 0x1C =>
    match payload with
    | [a, lo, hi, w1, w0, q3, q2, q1, q0] => .request (.sweep a lo hi (halfOf w1 w0) (wordOf q3 q2 q1 q0))
    | _ => .badLength
  | 0x1D => match payload with | [] => .request .sweepStop | _ => .badLength
  | 0x1E => match payload with | [] => .request .sweepRead | _ => .badLength
  | 0x20 => match payload with | [o] => .request (.alertRead o) | _ => .badLength
  | 0x21 => match payload with | n :: bs => orBadLength ((takeCfgRecords n.toNat bs).map .alertCfg) | _ => .badLength
  | 0x22 => match payload with | [l] => .request (.resolve l) | _ => .badLength
  | 0x23 => match payload with | [m, p1, p0] => .request (.alertTest m (halfOf p1 p0)) | _ => .badLength
  | 0x24 => match payload with | [a, b, c, d] => .request (.alertCancel (wordOf a b c d)) | _ => .badLength
  | 0x28 => match payload with | [o] => .request (.storeArm o) | _ => .badLength
  | 0x29 => match payload with | [k] => .request (.storeSave k) | _ => .badLength
  | 0x2A => match payload with | [k] => .request (.storeErase k) | _ => .badLength
  | 0x2B => match payload with | [k] => .request (.storeLoad k) | _ => .badLength
  | 0x2C => match payload with | [o] => .request (.storeStatus o) | _ => .badLength
  | 0x2D => match payload with | [c, f] => .request (.storeProtect c f) | _ => .badLength
  | 0x30 => match payload with | [] => .request .park | _ => .badLength
  | 0x31 => match payload with | [] => .request .unpark | _ => .badLength
  | 0x34 => match payload with | [k, i1, i0] => .request (.reportPlan k (halfOf i1 i0)) | _ => .badLength
  | _ => .unknownKind

/-! ### Writing requests -/

/-- The bytes of a list of 32-bit fields. -/
def wordsBytes (ws : List Word) : List Byte := ws.flatMap wordBytes

/-- The bytes of a waypoint record. -/
def WptRecord.bytes (r : WptRecord) : List Byte := r.mask :: (wordsBytes r.offsets ++ [r.label])

/-- The bytes of a queue entry. -/
def RawEntry.bytes : RawEntry → List Byte
  | .goto tag m w dn f => [byteOf 1, tag, m, w] ++ wordBytes dn ++ [f]
  | .shift tag m ds dn f => [byteOf 2, tag, m] ++ wordsBytes ds ++ wordBytes dn ++ [f]
  | .dwell tag n => [byteOf 3, tag] ++ wordBytes n
  | .wait tag m f t => [byteOf 4, tag, m, f] ++ wordBytes t
  | .cue tag s c => [byteOf 5, tag, s, c]
  | .mode tag m t => [byteOf 6, tag, m, t]

def TunePair.bytes (p : TunePair) : List Byte := p.field :: wordBytes p.value
def CuePair.bytes (p : CuePair) : List Byte := [p.cue, p.code, p.param]
def CfgRecord.bytes (r : CfgRecord) : List Byte := [r.source, r.level, r.enable, r.kind]

def optByteBytes : Option Byte → List Byte
  | some b => [b]
  | none => []
def optHalfBytes : Option Half → List Byte
  | some h => halfBytes h
  | none => []
def optSelectorBytes : Option RawSelector → List Byte
  | some s => [s.code, s.param]
  | none => []

/-- The low byte of SETUP's presence mask: bits 0..7. -/
def SetupFields.maskLow (f : SetupFields) : Byte :=
  flagBit 0 f.silence.isSome ||| flagBit 1 f.staleBase.isSome ||| flagBit 2 f.staleTip.isSome ||| flagBit 3 f.staleHead.isSome |||
  flagBit 4 f.gravBand.isSome ||| flagBit 5 f.driverMiss.isSome ||| flagBit 6 f.strictLoad.isSome ||| flagBit 7 f.bit7

/-- The high byte of SETUP's presence mask: bits 8..15, the selectors of C0..C7. -/
def SetupFields.maskHigh (f : SetupFields) : Byte :=
  flagBit 0 f.sel0.isSome ||| flagBit 1 f.sel1.isSome ||| flagBit 2 f.sel2.isSome ||| flagBit 3 f.sel3.isSome |||
  flagBit 4 f.sel4.isSome ||| flagBit 5 f.sel5.isSome ||| flagBit 6 f.sel6.isSome ||| flagBit 7 f.sel7.isSome

/-- The eight selectors of a SETUP, C0 first. -/
def SetupFields.selectors (f : SetupFields) : List (Option RawSelector) :=
  [f.sel0, f.sel1, f.sel2, f.sel3, f.sel4, f.sel5, f.sel6, f.sel7]

def SetupFields.bytes (f : SetupFields) : List Byte :=
  [f.maskHigh, f.maskLow] ++ optHalfBytes f.silence ++ optByteBytes f.staleBase ++ optByteBytes f.staleTip ++
  optByteBytes f.staleHead ++ optHalfBytes f.gravBand ++ optByteBytes f.driverMiss ++ optByteBytes f.strictLoad ++
  f.selectors.flatMap optSelectorBytes

/-- A request's code (R180). -/
def Request.kind : Request → Byte
  | .ident _ => 0x01
  | .restart => 0x02
  | .halt => 0x03
  | .run => 0x04
  | .step => 0x05
  | .setup _ => 0x06
  | .state _ => 0x08
  | .mode _ _ _ => 0x09
  | .demand _ _ => 0x0A
  | .tune _ _ => 0x0B
  | .tuneRead _ _ => 0x0C
  | .apply _ => 0x0D
  | .queueAdd _ => 0x10
  | .queueCtrl _ => 0x11
  | .queueRead => 0x12
  | .wptWrite _ _ => 0x14
  | .wptRead _ _ => 0x15
  | .wptLock _ => 0x16
  | .cue _ _ _ => 0x18
  | .sweep _ _ _ _ _ => 0x1C
  | .sweepStop => 0x1D
  | .sweepRead => 0x1E
  | .alertRead _ => 0x20
  | .alertCfg _ => 0x21
  | .resolve _ => 0x22
  | .alertTest _ _ => 0x23
  | .alertCancel _ => 0x24
  | .storeArm _ => 0x28
  | .storeSave _ => 0x29
  | .storeErase _ => 0x2A
  | .storeLoad _ => 0x2B
  | .storeStatus _ => 0x2C
  | .storeProtect _ _ => 0x2D
  | .park => 0x30
  | .unpark => 0x31
  | .reportPlan _ _ => 0x34

/-- A request's payload bytes (09, Request payloads). -/
def Request.payload : Request → List Byte
  | .ident o => [o]
  | .restart => []
  | .halt => []
  | .run => []
  | .step => []
  | .setup f => f.bytes
  | .state m => [m]
  | .mode m t d => [m, t, d]
  | .demand m rs => m :: rs.flatMap halfBytes
  | .tune a ps => [a, byteOf ps.length] ++ ps.flatMap TunePair.bytes
  | .tuneRead a c => [a, c]
  | .apply m => [m]
  | .queueAdd es => byteOf es.length :: es.flatMap RawEntry.bytes
  | .queueCtrl a => [a]
  | .queueRead => []
  | .wptWrite s rs => [s, byteOf rs.length] ++ rs.flatMap WptRecord.bytes
  | .wptRead s n => [s, n]
  | .wptLock f => [f]
  | .cue c s ps => [c, s, byteOf ps.length] ++ ps.flatMap CuePair.bytes
  | .sweep a lo hi w q => [a, lo, hi] ++ halfBytes w ++ wordBytes q
  | .sweepStop => []
  | .sweepRead => []
  | .alertRead o => [o]
  | .alertCfg rs => byteOf rs.length :: rs.flatMap CfgRecord.bytes
  | .resolve l => [l]
  | .alertTest m p => m :: halfBytes p
  | .alertCancel m => wordBytes m
  | .storeArm o => [o]
  | .storeSave k => [k]
  | .storeErase k => [k]
  | .storeLoad k => [k]
  | .storeStatus o => [o]
  | .storeProtect c f => [c, f]
  | .park => []
  | .unpark => []
  | .reportPlan k i => k :: halfBytes i

/-- The request, with its tag, that a request row of the table stands for; none for the other rows. -/
def Instr.requestOf : Instr → Option (Byte × Request)
  | .ident tag o => some (tag, .ident o)
  | .restart tag => some (tag, .restart)
  | .halt tag => some (tag, .halt)
  | .run tag => some (tag, .run)
  | .step tag => some (tag, .step)
  | .setup tag f => some (tag, .setup f)
  | .state tag m => some (tag, .state m)
  | .mode tag m t d => some (tag, .mode m t d)
  | .demand tag m rs => some (tag, .demand m rs)
  | .tune tag a ps => some (tag, .tune a ps)
  | .tuneRead tag a c => some (tag, .tuneRead a c)
  | .apply tag m => some (tag, .apply m)
  | .queueAdd tag es => some (tag, .queueAdd es)
  | .queueCtrlRun tag => some (tag, .queueCtrl 0)
  | .queueCtrlPause tag => some (tag, .queueCtrl 1)
  | .queueCtrlFlush tag => some (tag, .queueCtrl 2)
  | .queueRead tag => some (tag, .queueRead)
  | .wptWrite tag s rs => some (tag, .wptWrite s rs)
  | .wptRead tag s n => some (tag, .wptRead s n)
  | .wptLock tag f => some (tag, .wptLock f)
  | .cue tag c s ps => some (tag, .cue c s ps)
  | .sweep tag a lo hi w q => some (tag, .sweep a lo hi w q)
  | .sweepStop tag => some (tag, .sweepStop)
  | .sweepRead tag => some (tag, .sweepRead)
  | .alertRead tag o => some (tag, .alertRead o)
  | .alertCfg tag rs => some (tag, .alertCfg rs)
  | .resolveLevel2 tag => some (tag, .resolve 2)
  | .resolveLevel1 tag => some (tag, .resolve 1)
  | .alertTest tag m p => some (tag, .alertTest m p)
  | .alertCancel tag m => some (tag, .alertCancel m)
  | .storeArm tag => some (tag, .storeArm 0)
  | .storeDisarm tag => some (tag, .storeArm 1)
  | .storeSave tag k => some (tag, .storeSave k)
  | .storeErase tag k => some (tag, .storeErase k)
  | .storeProtect tag c f _ => some (tag, .storeProtect c f)
  | .storeLoad tag k => some (tag, .storeLoad k)
  | .storeStatus tag o _ => some (tag, .storeStatus o)
  | .park tag => some (tag, .park)
  | .unpark tag => some (tag, .unpark)
  | .reportPlan tag k i => some (tag, .reportPlan k i)
  | .powerOnReset _ | .pinReset _ | .inertialSampleRecord _ _ | .encoderRecord _ _ | .partialRecordDiscard _
  | .stalenessExpiry _ | .loopFrame | .driveWordSent _ | .driverReport _ _ | .killAssertion | .killRelease
  | .triggerLineChange _ _ | .holdOffExpiry _ | .goodFrame _ _ _ | .lengthError _ _ | .crcError _ _ _ _ _ | .gap _
  | .consoleFrameSent | .silenceExpiry | .unknownKind _ _ _ | .saveCompletion | .eraseCompletion | .protectCompletion
  | .unparkSettlingEnd => none

end Sys2Proof
end

