-- ==== Sys2Proof/Machine/Arith.lean ====
section
/-! DEFINITION. The exact integer arithmetic of the manual and its narrowing: clamping, wrap difference, saturation, the two
roundings (00, Conventions). `/` on `Int` with a positive divisor is floor division; `Int.tdiv` is truncation. -/

namespace Sys2Proof.Machine

/-- clamp(x, a, b): x limited to a..b. -/
def clampInt (x a b : Int) : Int := if x < a then a else if b < x then b else x

/-- clamp(x, ±m). -/
def clampSym (x m : Int) : Int := clampInt x (-m) m

/-- The wrap difference of two world angles: the signed 32-bit difference modulo 2^32 (00, Conventions). -/
def wrapDiff (a b : Word) : Int := (a - b).toInt

/-- A world angle moved by `d`, wrapping modulo 2^32. -/
def wrapAdd (a : Word) (d : Int) : Word := a + BitVec.ofInt 32 d

/-- The least and greatest signed 32-bit values. -/
def int32Min : Int := -2147483648
def int32Max : Int := 2147483647

/-- A value saturated at the signed 32-bit limits (joint angles, 00 Conventions). -/
def sat32 (x : Int) : Word := BitVec.ofInt 32 (clampInt x int32Min int32Max)

/-- A signed value of at most 16 bits in its field. -/
def half16 (x : Int) : Half := BitVec.ofInt 16 x

/-- A 16-bit count plus `n`, saturating at 65,535 (R15, R48, R59, R61, R169). -/
def satAdd (c : Half) (n : Nat) : Half := BitVec.ofNat 16 (min (c.toNat + n) 65535)

/-- A 16-bit count incremented, saturating. -/
def satInc (c : Half) : Half := satAdd c 1

end Sys2Proof.Machine
end

