-- ==== Sys2Proof/Config.lean ====
section
/-! DEFINITION. What the manual leaves open (constants without a body) and the wall-time unit of the model. -/

namespace Sys2Proof

/-- How the `n`-th open order of a run is resolved, once the state's `schedule` is used up.
No body: nothing can be proved of its values (notes/assumptions/5.md). -/
opaque Config.freeChoice : Nat → Nat

/-- The `n`-th value that the manual does not state (notes/assumptions/7.md). No body. -/
opaque Config.freeValue : Nat → Half

/-- Wall-time units (1/32 µs each) in one loop frame: 488.28125 µs (00, Units). DESIGN CHOICE of the unit: notes/assumptions/2.md. -/
def Config.unitsPerLoopFrame : Nat := 15625

/-- Wall-time units in one millisecond. -/
def Config.unitsPerMs : Nat := 32000

end Sys2Proof
end

