-- ==== Sys2Proof/Machine/State.lean ====
section
/-! DEFINITION. The state of the FG-540: every register, buffer, counter, timer, mode and pin the manual gives it, block by block,
the queue of waiting commands, and the state after reset. Plain data throughout. -/

namespace Sys2Proof.Machine

/-- Nothing stops this block with a fault: the manual names none (troubles are alerts, refused requests are status codes). -/
inductive Fault where
deriving DecidableEq, Repr

/-- Why a command has no meaning in the model. -/
inductive Refusal where
  /-- Raised by an arm of `exec` whose command has no meaning yet; safe (the machine stops). No arm raises it now. -/
  | notModelled (mnemonic : String)
deriving DecidableEq, Repr

/-! ### Collections of fixed shape -/

/-- One item for each of the five axes. -/
structure Five (α : Type) where
  swing : α
  lift : α
  pan : α
  tilt : α
  roll : α
deriving DecidableEq, Repr

/-- One item for each of the three inertial units. -/
structure Three (α : Type) where
  base : α
  tip : α
  head : α
deriving DecidableEq, Repr

/-- A set of axes: bit k stands for the axis of index k (02, section 2.1). -/
abbrev AxisSet := BitVec 5

/-! ### Sensor Intake (chapter 1) -/

/-- The slot of an inertial unit: the fields of the last accepted record (R5). -/
structure InertialSlot where
  yaw : Half
  pitch : Half
  roll : Half
  levelPitch : Word
  levelRoll : Word
  accel : Half
  status : Byte
  seq : Byte
deriving DecidableEq, Repr

/-- A SEN port: assembler (`held` empty is IDLE), slot, freshness, staleness timer (running exactly while fresh), sequence
reference, counters (R1, R4, R5, R6, R15). -/
structure InertialPort where
  held : List Byte
  slot : InertialSlot
  fresh : Bool
  elapsed : Nat
  seqRef : Option Byte
  accepted : Half
  rejected : Half
  missed : Half
  duplicate : Half
deriving DecidableEq, Repr

/-- An ENC port (R6, R9, R10, R15). -/
structure EncoderPort where
  held : List Byte
  position : BitVec 20
  newPos : Bool
  fresh : Bool
  elapsed : Nat
  accepted : Half
  rejected : Half
deriving DecidableEq, Repr

/-- The Sensor Intake block. -/
structure SensorIntake where
  sen : Three InertialPort
  enc : Five EncoderPort
deriving DecidableEq, Repr

/-! ### Axis Table (chapter 2) -/

/-- The modes of an axis (02, section 2.3). -/
inductive Mode where
  | off | stopped | hold | rate | follow | move | safe
deriving DecidableEq, Repr

/-- satFlag and pinState (R59, R61). -/
inductive LimitFlag where
  | none | high | low
deriving DecidableEq, Repr

/-- The kill phases (R128). -/
inductive KillPhase where
  | clear | awaiting | halted | paused
deriving DecidableEq, Repr

inductive KillTiming where
  | immediate | next
deriving DecidableEq, Repr

inductive KillEffect where
  | halt | pause
deriving DecidableEq, Repr

/-- The shape of a segment (R85). -/
inductive Shape where
  | linear | eased
deriving DecidableEq, Repr

/-- The mode a segment ends in (R31). -/
inductive EndMode where
  | hold | follow
deriving DecidableEq, Repr

/-- A tuning record: the 30 fields of R32. -/
structure Tuning where
  kp : Nat
  ki : Nat
  kr : Nat
  kf : Nat
  ffSign : Int
  d : Nat
  n : Nat
  umax : Nat
  udamp : Nat
  l : Nat
  imax : Nat
  rmax : Nat
  amax : Nat
  jmin : Int
  jmax : Int
  pinLimit : Nat
  satLimit : Nat
  followShift : Nat
  levelShift : Nat
  levelCap : Nat
  coastLimit : Nat
  usafe : Nat
  ks : Nat
  killTiming : KillTiming
  killEffect : KillEffect
  reportEvery : Nat
  markAngle : Int
  markUp : Bool
  markDown : Bool
  gyroBias : Int
deriving DecidableEq, Repr

/-- A segment: (serial, S0, S1, Dn, k, shape, endMode) (02, section 2.2). -/
structure Segment where
  serial : Half
  s0 : Word
  s1 : Word
  dn : Nat
  k : Nat
  shape : Shape
  endMode : EndMode
deriving DecidableEq, Repr

/-- An axis record: runtime, active and staged tuning (02, section 2.2), kill phase (R128), last mark frame (R102). The
killSeen flag is `killPhase ≠ clear` (R128). -/
structure AxisRec where
  mode : Mode
  t : Word
  w : Word
  j : Word
  f : Word
  o : Word
  i : Word
  uPrev : Half
  satFlag : LimitFlag
  pinState : LimitFlag
  satCount : Half
  pinCount : Half
  coastCount : Half
  rdTarget : Half
  rdEff : Half
  damp : Bool
  killPhase : KillPhase
  jlock : Word
  segment : Option Segment
  launch : Option Segment
  swapPending : Bool
  lastEncoder : Option (BitVec 20)
  lastMark : Option Word
  active : Tuning
  staged : Tuning
deriving DecidableEq, Repr

/-! ### Loop Engine (chapters 1, 3, 11) -/

/-- A base history entry (R13). -/
structure Triple where
  yaw : Half
  pitch : Half
  roll : Half
deriving DecidableEq, Repr

inductive ParkState where
  | running | parked | unparking
deriving DecidableEq, Repr

/-- The Loop Engine but for the Axis Table: frame number, heading, base history ring (64 triples, entry 0 first), park state,
halted flag, frame timer, settling timer. -/
structure LoopEngine where
  frameNo : Word
  heading : Word
  ring : List Triple
  park : ParkState
  halted : Bool
  frameTimer : Bool
  frameElapsed : Nat
  settleElapsed : Nat
deriving DecidableEq, Repr

/-! ### Move Sequencer (chapters 4 and 5) -/

/-- A waypoint slot (R67). -/
structure Waypoint where
  label : Byte
  offsets : Five (Option Word)
deriving DecidableEq, Repr

/-- The modes a request or entry may name (R22, R71). -/
inductive TargetMode where
  | off | stopped | hold | rate | follow
deriving DecidableEq, Repr

/-- The body of a queue entry (R71). Durations are as stored: at least 1. -/
inductive EntryBody where
  | goto (mask : AxisSet) (slot : Nat) (dn : Nat) (shape : Shape) (endMode : EndMode) (wait : Bool)
  | shift (deltas : Five (Option Word)) (dn : Nat) (shape : Shape) (endMode : EndMode) (wait : Bool)
  | dwell (frames : Nat)
  | wait (mask : Byte) (any consume : Bool) (timeout : Option Nat)
  | cue (set clear : Byte)
  | mode (mask : AxisSet) (target : TargetMode)
deriving DecidableEq, Repr

/-- A queue entry with its serial and tag (04, section 4.2). -/
structure Entry where
  serial : Half
  tag : Byte
  body : EntryBody
deriving DecidableEq, Repr

inductive EntryKind where
  | goto | shift | dwell | wait | cue | mode
deriving DecidableEq, Repr

/-- The head phase with what is held with it (R75). -/
inductive HeadPhase where
  | none
  | pending
  | dwelling (left : Nat)
  | waitingCue (left : Option Nat)
  | waitingSegments (outstanding : AxisSet) (aborted : Bool)
deriving DecidableEq, Repr

/-- How an entry retires (R88). -/
inductive EntryOutcome where
  | done | skipped | aborted | timeout
deriving DecidableEq, Repr

/-- A Done List record (R88). -/
structure DoneRecord where
  serial : Half
  tag : Byte
  kind : EntryKind
  outcome : EntryOutcome
  frame : Word
deriving DecidableEq, Repr

/-- An alert level. -/
inductive Level where
  | one | two
deriving DecidableEq, Repr

/-- A cue's selector (R97). -/
inductive Selector where
  | none
  | segmentDone (a : Axis)
  | mark (a : Axis)
  | trigger (line : TrigLine)
  | kill
  | alert (l : Level)
deriving DecidableEq, Repr

/-- A trigger line: its pin's level, accepted level, hold-off (R100). -/
structure Trigger where
  line : Bool
  accepted : Bool
  holdOff : Bool
  elapsed : Nat
deriving DecidableEq, Repr

/-- The Move Sequencer. `waypoints` has 64 slots, `cueSources` 8 selectors, `locks` one bit per page. -/
structure Sequencer where
  queue : List Entry
  phase : HeadPhase
  running : Bool
  holdKill : Bool
  holdAlert : Bool
  nextSerial : Half
  doneList : List DoneRecord
  waypoints : List Waypoint
  locks : BitVec 4
  cues : Byte
  cueSources : List Selector
  trig0 : Trigger
  trig1 : Trigger
deriving DecidableEq, Repr

/-! ### Alignment Sweep Unit (chapter 6) -/

inductive SweepOutcome where
  | none | done | doneGapped | noWindow | aborted
deriving DecidableEq, Repr

/-- The last result record (R108). -/
structure SweepResult where
  outcome : SweepOutcome
  axis : Axis
  d : Nat
  first : Option Nat
  last : Option Nat
  frame : Word
deriving DecidableEq, Repr

/-- The Alignment Sweep Unit: state, context (R107), result table of 64 residuals, last result. -/
structure Sweep where
  running : Bool
  axis : Axis
  dlo : Nat
  dhi : Nat
  wn : Nat
  q : Word
  savedD : Nat
  currentD : Nat
  count : Nat
  sum : Nat
  results : List Word
  last : SweepResult
deriving DecidableEq, Repr

/-! ### Drive Links (chapter 7) -/

inductive DriveCommand where
  | drive | brake | freewheel
deriving DecidableEq, Repr

/-- A drive word (R121). -/
structure DriveWord where
  command : DriveCommand
  request : Bool
  code : BitVec 12
deriving DecidableEq, Repr

/-- The last good report (R125). -/
structure DriverReport where
  current : Half
  temperature : Byte
  status : Byte
  frame : Word
deriving DecidableEq, Repr

/-- A drive link: transmitter (`sending` absent is IDLE), waiting slot, last word sent, request counter, outstanding flag, miss
counter, last good report, report assembler (R120 to R127). -/
structure DriveLink where
  sending : Option DriveWord
  waiting : Option DriveWord
  lastWord : Option DriveWord
  requestCount : Nat
  outstanding : Bool
  missCount : Nat
  lastReport : Option DriverReport
  held : List Byte
deriving DecidableEq, Repr

/-! ### Alert Controller (chapter 8) -/

/-- The 26 sources (R139). -/
inductive Source where
  | test | kill | linkSilent | horizonCoast | baseStale | storeParity
  | feedbackStale (a : Axis) | pinned (a : Axis) | saturated (a : Axis) | driveFault (a : Axis)
deriving DecidableEq, Repr

/-- One source: configuration (R142), truth (R140), pending (R143, R144), held parameter of an event (R141). -/
structure SourceState where
  level : Level
  enable : Bool
  latched : Bool
  truth : Bool
  pending : Bool
  param : Half
deriving DecidableEq, Repr

/-- One item for each source. -/
structure Sources (α : Type) where
  test : α
  kill : α
  linkSilent : α
  horizonCoast : α
  baseStale : α
  storeParity : α
  feedbackStale : Five α
  pinned : Five α
  saturated : Five α
  driveFault : Five α
deriving DecidableEq, Repr

/-- A cause record (R148). -/
structure Cause where
  source : Source
  level : Level
  mask : AxisSet
  param : Half
  frame : Word
deriving DecidableEq, Repr

/-- The Alert Controller. -/
structure Alerts where
  sources : Sources SourceState
  testMask : AxisSet
  inService1 : Bool
  inService2 : Bool
  cause1 : Option Cause
  cause2 : Option Cause
  link1 : Option (Five Bool)
  link2 : Option (Five Mode)
  seen1 : Bool
  seen2 : Bool
deriving DecidableEq, Repr

/-! ### Console Link (chapter 9) -/

/-- A Console Link frame: kind, tag, payload (R161). -/
structure Frame where
  kind : Byte
  tag : Byte
  payload : List Byte
deriving DecidableEq, Repr

/-- The receive assembler (R162): HUNT, or out of HUNT with the bytes taken after the start byte, which are also the rescan
store; LENGTH, HEADER, PAYLOAD and CHECK follow from them. -/
inductive RxState where
  | hunt
  | inFrame (store : List Byte)
deriving DecidableEq, Repr

/-- The dispatcher (R167). In RESTARTING, `held` is the RESTART reply while it waits for a place (R176). -/
inductive Dispatcher where
  | ready
  | replyWaiting (reply : Frame)
  | restarting (held : Option Frame)
deriving DecidableEq, Repr

inductive SilenceState where
  | notStarted | running | expired
deriving DecidableEq, Repr

/-- The six link counters (R169). -/
structure LinkCounters where
  admitted : Half
  lengthErrors : Half
  crcErrors : Half
  gaps : Half
  overruns : Half
  unaskedDrops : Half
deriving DecidableEq, Repr

/-- The setup record but for the cue selectors, which are the cue source table itself (R173). -/
structure Setup where
  silenceLimit : Nat
  staleLimit : Three Nat
  gravBand : Nat
  driverMissLimit : Nat
  strictLoad : Bool
deriving DecidableEq, Repr

inductive ResetCause where
  | power | pin | restart
deriving DecidableEq, Repr

/-- The Console Link. `planSet`: bit 0 AXIS, bit 1 SENSOR, bit 2 QUEUE (R177). -/
structure Console where
  rx : RxState
  requests : List Frame
  dispatcher : Dispatcher
  txQueue : List Frame
  silence : SilenceState
  silenceElapsed : Nat
  counters : LinkCounters
  planSet : BitVec 3
  planInterval : Nat
  setup : Setup
  resetCause : ResetCause
  resetSeen : Bool
deriving DecidableEq, Repr

/-! ### Profile Store (chapter 10) -/

inductive SlotState where
  | empty | valid | partly
deriving DecidableEq, Repr

/-- A stored word with its two parity bits, one per byte (R182). R182 lets bad words arise from the memory cells alone and leaves open when
and which: no command of the model makes one (DESIGN CHOICE: notes/assumptions/33.md). -/
structure StoredWord where
  data : Half
  parityHigh : Bool
  parityLow : Bool
deriving DecidableEq, Repr

/-- A profile image of 1046 words, held as (word index, word), indices strictly rising; an unlisted word reads as 0 with
correct parity (`Image.read`), and no listed word equals that (`Image.wf`). -/
abbrev Image := List (Nat × StoredWord)

structure Slot where
  state : SlotState
  image : Image
deriving DecidableEq, Repr

/-- The busy state, with what the operation in progress will write (R183, R185, R187). -/
inductive Busy where
  | idle
  | saving (slot : Nat) (image : Image)
  | erasing (slot : Nat)
  | protecting (count : Nat) (freeze : Bool)
deriving DecidableEq, Repr

/-- The Profile Store: eight slots, enable latch, busy state with its timer, protect count, freeze flag, parity flag, last bad
location (slot, word index). -/
structure Store where
  slots : List Slot
  latch : Bool
  busy : Busy
  busyElapsed : Nat
  protectCount : Nat
  freeze : Bool
  parityFlag : Bool
  lastBad : Option (Nat × Nat)
deriving DecidableEq, Repr

/-! ### The whole machine -/

/-- The state. `killAsserted` is the kill level, which is KILL_N's level taken as it comes (R128); `protHigh` is PROT_N's level;
the trigger pins stand in `ms`. `pending` is the queue of commands; `schedule` and `freeCount` resolve the open orders and
values (notes/assumptions/5.md): the model's own. -/
structure State where
  si : SensorIntake
  axes : Five AxisRec
  le : LoopEngine
  ms : Sequencer
  sw : Sweep
  dl : Five DriveLink
  killAsserted : Bool
  alc : Alerts
  cl : Console
  ps : Store
  protHigh : Bool
  pending : List Instr
  schedule : List Nat
  freeCount : Nat
deriving DecidableEq, Repr

/-! ### Values after reset -/

/-- The same item for every axis, unit. -/
def Five.all {α : Type} (x : α) : Five α := ⟨x, x, x, x, x⟩
def Three.all {α : Type} (x : α) : Three α := ⟨x, x, x⟩

/-- R18. -/
def SensorIntake.reset : SensorIntake where
  sen := Three.all
    { held := [], slot := ⟨0, 0, 0, 0, 0, 0, 0, 0⟩, fresh := false, elapsed := 0, seqRef := none,
      accepted := 0, rejected := 0, missed := 0, duplicate := 0 }
  enc := Five.all
    { held := [], position := 0, newPos := false, fresh := false, elapsed := 0, accepted := 0, rejected := 0 }

/-- The "After reset" column of R32, for an axis with frame divisor `n`. -/
def Tuning.reset (n : Nat) : Tuning where
  kp := 0
  ki := 0
  kr := 0
  kf := 0
  ffSign := -1
  d := 0
  n := n
  umax := 1000
  udamp := 500
  l := 2000
  imax := 0
  rmax := 4096
  amax := 64
  jmin := -16777216
  jmax := 16777216
  pinLimit := 2048
  satLimit := 2048
  followShift := 10
  levelShift := 10
  levelCap := 64
  coastLimit := 4096
  usafe := 400
  ks := 20000
  killTiming := .immediate
  killEffect := .halt
  reportEvery := 16
  markAngle := 0
  markUp := false
  markDown := false
  gyroBias := 0

/-- R40, for an axis with frame divisor `n` after reset. -/
def AxisRec.reset (n : Nat) : AxisRec where
  mode := .off
  t := 0
  w := 0
  j := 0
  f := 0
  o := 0
  i := 0
  uPrev := 0
  satFlag := .none
  pinState := .none
  satCount := 0
  pinCount := 0
  coastCount := 0
  rdTarget := 0
  rdEff := 0
  damp := false
  killPhase := .clear
  jlock := 0
  segment := none
  launch := none
  swapPending := false
  lastEncoder := none
  lastMark := none
  active := Tuning.reset n
  staged := Tuning.reset n

/-- R32: N is 4 for SWING and LIFT, 1 for PAN, TILT and ROLL. -/
def axesReset : Five AxisRec :=
  ⟨AxisRec.reset 4, AxisRec.reset 4, AxisRec.reset 1, AxisRec.reset 1, AxisRec.reset 1⟩

/-- R18, R193. -/
def LoopEngine.reset : LoopEngine where
  frameNo := 0
  heading := 0
  ring := List.replicate 64 ⟨0, 0, 0⟩
  park := .running
  halted := false
  frameTimer := true
  frameElapsed := 0
  settleElapsed := 0

/-- R92, R105, R101: the accepted levels are the lines' levels as the reset ends. -/
def Sequencer.reset (trig0 trig1 : Bool) : Sequencer where
  queue := []
  phase := .none
  running := false
  holdKill := false
  holdAlert := false
  nextSerial := 0
  doneList := []
  waypoints := List.replicate 64 ⟨0, Five.all none⟩
  locks := 0
  cues := 0
  cueSources := List.replicate 8 .none
  trig0 := ⟨trig0, trig0, false, 0⟩
  trig1 := ⟨trig1, trig1, false, 0⟩

/-- R119. -/
def Sweep.reset : Sweep where
  running := false
  axis := .swing
  dlo := 0
  dhi := 0
  wn := 0
  q := 0
  savedD := 0
  currentD := 0
  count := 0
  sum := 0
  results := List.replicate 64 0
  last := ⟨.none, .swing, 0, none, none, 0⟩

/-- R137. -/
def DriveLink.reset : DriveLink where
  sending := none
  waiting := none
  lastWord := none
  requestCount := 0
  outstanding := false
  missCount := 0
  lastReport := none
  held := []

/-- A condition source after reset (R142, R160). -/
def SourceState.reset (level : Level) (latched : Bool) : SourceState :=
  { level, enable := true, latched, truth := false, pending := false, param := 0 }

/-- R160, with the default levels of R139. -/
def Alerts.reset : Alerts where
  sources :=
    { test := SourceState.reset .one true
      kill := SourceState.reset .one false
      linkSilent := SourceState.reset .one false
      horizonCoast := SourceState.reset .one false
      baseStale := SourceState.reset .one false
      storeParity := SourceState.reset .one true
      feedbackStale := Five.all (SourceState.reset .two false)
      pinned := Five.all (SourceState.reset .one false)
      saturated := Five.all (SourceState.reset .one false)
      driveFault := Five.all (SourceState.reset .two true) }
  testMask := 0
  inService1 := false
  inService2 := false
  cause1 := none
  cause2 := none
  link1 := none
  link2 := none
  seen1 := false
  seen2 := false

/-- R181 with the setup values of R173. -/
def Console.reset (cause : ResetCause) : Console where
  rx := .hunt
  requests := []
  dispatcher := .ready
  txQueue := []
  silence := .notStarted
  silenceElapsed := 0
  counters := ⟨0, 0, 0, 0, 0, 0⟩
  planSet := 0
  planInterval := 0
  setup := { silenceLimit := 100, staleLimit := Three.all 8, gravBand := 80, driverMissLimit := 3, strictLoad := true }
  resetCause := cause
  resetSeen := true

/-- The store as the part leaves the factory: protect count 0 and freeze flag clear (R187); slots EMPTY with every word 0,
DESIGN CHOICE (notes/assumptions/10.md); the rest as R192. -/
def Store.factory : Store where
  slots := List.replicate 8 ⟨.empty, []⟩
  latch := false
  busy := .idle
  busyElapsed := 0
  protectCount := 0
  freeze := false
  parityFlag := false
  lastBad := none

/-- The machine right after its first power-on reset, with KILL_N and PROT_N high and TRIG0 and TRIG1 low
(notes/assumptions/8.md): every block at its values "after reset", the reset cause POWER, no command waiting. -/
def State.reset : State where
  si := SensorIntake.reset
  axes := axesReset
  le := LoopEngine.reset
  ms := Sequencer.reset false false
  sw := Sweep.reset
  dl := Five.all DriveLink.reset
  killAsserted := false
  alc := Alerts.reset
  cl := Console.reset .power
  ps := Store.factory
  protHigh := true
  pending := []
  schedule := []
  freeCount := 0

end Sys2Proof.Machine
end

