-- ==== Sys2Proof/Machine/Ops.lean ====
section
/-! DEFINITION. The named operations the meanings share: reaching the parts of State, the open choices, the transmit queue and
notices, drive words handed to a link, the staleness and other timers. -/

namespace Sys2Proof.Machine

/-! ### Axes and units -/

/-- The index 0..4 of an axis. -/
def axisIndex : Axis → Nat
  | .swing => 0
  | .lift => 1
  | .pan => 2
  | .tilt => 3
  | .roll => 4

/-- The axes in index order. -/
def allAxes : List Axis := [.swing, .lift, .pan, .tilt, .roll]

/-- The axis of an index 0..4 (02, section 2.1). -/
def axisOfIndex : Nat → Option Axis
  | 0 => some .swing
  | 1 => some .lift
  | 2 => some .pan
  | 3 => some .tilt
  | 4 => some .roll
  | _ => none

/-- A heading axis (SWING, PAN); the others are level axes (02, section 2.1). -/
def isHeading : Axis → Bool
  | .swing => true
  | .pan => true
  | _ => false

def Five.get {α : Type} (x : Five α) : Axis → α
  | .swing => x.swing
  | .lift => x.lift
  | .pan => x.pan
  | .tilt => x.tilt
  | .roll => x.roll

def Five.set {α : Type} (x : Five α) (k : Axis) (v : α) : Five α :=
  match k with
  | .swing => { x with swing := v }
  | .lift => { x with lift := v }
  | .pan => { x with pan := v }
  | .tilt => { x with tilt := v }
  | .roll => { x with roll := v }

/-- One item per axis, computed from the axis and the item there. -/
def Five.mapAxis {α β : Type} (g : Axis → α → β) (x : Five α) : Five β :=
  ⟨g .swing x.swing, g .lift x.lift, g .pan x.pan, g .tilt x.tilt, g .roll x.roll⟩

def Three.get {α : Type} (x : Three α) : SenUnit → α
  | .base => x.base
  | .tip => x.tip
  | .head => x.head

def Three.set {α : Type} (x : Three α) (u : SenUnit) (v : α) : Three α :=
  match u with
  | .base => { x with base := v }
  | .tip => { x with tip := v }
  | .head => { x with head := v }

def Three.mapUnit {α β : Type} (g : SenUnit → α → β) (x : Three α) : Three β :=
  ⟨g .base x.base, g .tip x.tip, g .head x.head⟩

/-- Bit k of an axis set. -/
def hasAxis (m : AxisSet) (k : Axis) : Bool := m.getLsbD (axisIndex k)

/-- The set of the axes for which `p` holds. -/
def axisSetOf (p : Axis → Bool) : AxisSet :=
  (if p .swing then 1 else 0) ||| (if p .lift then 2 else 0) ||| (if p .pan then 4 else 0) ||| (if p .tilt then 8 else 0) |||
  (if p .roll then 16 else 0)

/-- The axes of a set in index order. -/
def axesOf (m : AxisSet) : List Axis := allAxes.filter (hasAxis m)

/-! ### Parts of State -/

def State.axis (s : State) (k : Axis) : AxisRec := s.axes.get k

def State.setAxis (s : State) (k : Axis) (a : AxisRec) : State := { s with axes := s.axes.set k a }

def State.setSen (s : State) (u : SenUnit) (p : InertialPort) : State := { s with si := { s.si with sen := s.si.sen.set u p } }

def State.setEnc (s : State) (k : Axis) (p : EncoderPort) : State := { s with si := { s.si with enc := s.si.enc.set k p } }

def State.setLink (s : State) (k : Axis) (l : DriveLink) : State := { s with dl := s.dl.set k l }

def State.setTrig (s : State) (line : TrigLine) (t : Trigger) : State :=
  match line with
  | .trig0 => { s with ms := { s.ms with trig0 := t } }
  | .trig1 => { s with ms := { s.ms with trig1 := t } }

def State.trig (s : State) : TrigLine → Trigger
  | .trig0 => s.ms.trig0
  | .trig1 => s.ms.trig1

/-- The level of PROT_N (notes/assumptions/9.md). -/
def State.setProt (s : State) (high : Bool) : State := { s with protHigh := high }

/-! ### Open choices -/

/-- One of `n` alternatives that the manual leaves open (either order may occur). A single alternative is no choice. The
schedule resolves it while it lasts, then `Config.freeChoice` (notes/assumptions/5.md). -/
def State.choose (s : State) (n : Nat) : Nat × State :=
  if n ≤ 1 then (0, s)
  else
    match s.schedule with
    | c :: cs => (c % n, { s with schedule := cs })
    | [] => (Config.freeChoice s.freeCount % n, { s with freeCount := s.freeCount + 1 })

/-- A 16-bit value that the manual does not state (notes/assumptions/7.md). -/
def State.freeHalf (s : State) : Half × State :=
  (Config.freeValue s.freeCount, { s with freeCount := s.freeCount + 1 })

/-! ### Transmit queue and notices (R168, R179) -/

/-- The transmit queue has a free place: it holds fewer than 4 frames (R168). -/
def State.txFree (s : State) : Bool := s.cl.txQueue.length < 4

def State.pushTx (s : State) (f : Frame) : State := { s with cl := { s.cl with txQueue := s.cl.txQueue ++ [f] } }

/-- A report or notice enters when there is a free place; otherwise it is dropped and counted (R168). -/
def State.offerUnasked (s : State) (f : Frame) : State :=
  if s.txFree then s.pushTx f
  else { s with cl := { s.cl with counters := { s.cl.counters with unaskedDrops := satInc s.cl.counters.unaskedDrops } } }

/-- The operations that end with an OP_DONE notice (09, IDENT reply and notices). -/
inductive DoneOp where
  | sweep | save | erase | protect | unpark
deriving DecidableEq, Repr

def opCode : DoneOp → Byte
  | .sweep => 1
  | .save => 2
  | .erase => 3
  | .protect => 4
  | .unpark => 5

/-- An OP_DONE notice: kind 0x49, tag 0, loop frame, operation, three detail bytes (R179). -/
def State.noticeDone (s : State) (op : DoneOp) (d1 d2 d3 : Byte) : State :=
  s.offerUnasked ⟨0x49, 0, wordBytes s.le.frameNo ++ [opCode op, d1, d2, d3]⟩

/-! ### Drive words (R120, R121) -/

/-- The demand code of a DRIVE word (R121). -/
def demandCode (u : Int) : BitVec 12 := BitVec.ofInt 12 (2048 + u)

def brakeWord (request : Bool) : DriveWord := ⟨.brake, request, 2048⟩

/-- A word starts on the line: it becomes the last word sent, and its report request makes a report outstanding (R120, R124). -/
def DriveLink.start (l : DriveLink) (w : DriveWord) : DriveLink :=
  { l with sending := some w, lastWord := some w, outstanding := l.outstanding || w.request }

/-- A word handed to a link starts at once when the transmitter is IDLE, and otherwise takes the waiting slot (R120). -/
def DriveLink.hand (l : DriveLink) (w : DriveWord) : DriveLink :=
  if l.sending.isNone then l.start w else { l with waiting := some w }

def State.handWord (s : State) (k : Axis) (w : DriveWord) : State := s.setLink k ((s.dl.get k).hand w)

/-- One BRAKE word with the report request clear to each of the five links (R194, R197). -/
def State.brakeAll (s : State) : State :=
  { s with dl := s.dl.mapAxis (fun _ l => l.hand (brakeWord false)) }

/-- The two bytes of a drive word before its CRC (09, Drive word). -/
def DriveWord.head (w : DriveWord) : List Byte :=
  let cmd : BitVec 3 := match w.command with | .drive => 1 | .brake => 2 | .freewheel => 4
  let h : Half := (cmd ++ (BitVec.ofBool w.request)) ++ w.code
  halfBytes h

/-- The three bytes a drive word puts on its DRV line (R121). -/
def DriveWord.wire (w : DriveWord) : List Byte := w.head ++ [crc8 w.head]

/-- The bytes a frame puts on the Console Link (R161). -/
def Frame.wire (f : Frame) : List Byte :=
  0xC5 :: coveredBytes f.kind f.tag f.payload ++ halfBytes (crc16 (coveredBytes f.kind f.tag f.payload))

/-! ### Wall time (notes/assumptions/2.md, 3.md) -/

/-- One unit of wall time on every timer that runs (R6, R100, R170, R183, R193, R196). -/
def State.tick (s : State) : State :=
  { s with
    si :=
      { sen := s.si.sen.mapUnit (fun _ p => if p.fresh then { p with elapsed := p.elapsed + 1 } else p)
        enc := s.si.enc.mapAxis (fun _ p => if p.fresh then { p with elapsed := p.elapsed + 1 } else p) }
    le :=
      { s.le with
        frameElapsed := if s.le.frameTimer then s.le.frameElapsed + 1 else s.le.frameElapsed
        settleElapsed := if s.le.park = .unparking then s.le.settleElapsed + 1 else s.le.settleElapsed }
    ms :=
      { s.ms with
        trig0 := if s.ms.trig0.holdOff then { s.ms.trig0 with elapsed := s.ms.trig0.elapsed + 1 } else s.ms.trig0
        trig1 := if s.ms.trig1.holdOff then { s.ms.trig1 with elapsed := s.ms.trig1.elapsed + 1 } else s.ms.trig1 }
    cl :=
      { s.cl with
        silenceElapsed := if s.cl.silence = .running then s.cl.silenceElapsed + 1 else s.cl.silenceElapsed }
    ps :=
      { s.ps with busyElapsed := if s.ps.busy = .idle then s.ps.busyElapsed else s.ps.busyElapsed + 1 } }

/-- The frame timer runs exactly when the park state is RUNNING or UNPARKING and the halted flag is clear (R193). -/
def LoopEngine.timerShouldRun (le : LoopEngine) : Bool := decide (le.park ≠ .parked) && !le.halted

end Sys2Proof.Machine
end

