-- ==== Sys2Proof/Machine/Operands.lean ====
section
/-! DEFINITION. Operands: what the fields of a request or of a stored image mean, and the ranges they are checked against or clamped
into: axis masks, modes, the 30 tuning fields, selectors, queue entries. -/

namespace Sys2Proof.Machine

/-! ### Axis masks and modes -/

/-- An axis mask without a bit above the five axes. -/
def maskInFive (m : Byte) : Bool := m.toNat < 32

/-- Bits 0..4 of a mask. -/
def axisSet (m : Byte) : AxisSet := m.setWidth 5

/-- An axis mask that a request naming axes accepts: not 0, no bit above the five axes (R22, R35, R39). -/
def maskNamesAxes (m : Byte) : Bool := m != 0 && maskInFive m

/-- The byte of an axis set. -/
def axisSetByte (m : AxisSet) : Byte := m.setWidth 8

/-- MODE's target code (09, Request payloads): a mode, absent (0xFF), or not a code. -/
def targetCode (b : Byte) : Option (Option TargetMode) :=
  match b.toNat with
  | 0 => some (some .off)
  | 1 => some (some .stopped)
  | 2 => some (some .hold)
  | 3 => some (some .rate)
  | 4 => some (some .follow)
  | 0xFF => some none
  | _ => none

/-- MODE's DAMP action: absent, SET (`true`), CLEAR (`false`), or not a code. -/
def dampCode (b : Byte) : Option (Option Bool) :=
  match b.toNat with
  | 0 => some none
  | 1 => some (some true)
  | 2 => some (some false)
  | _ => none

def TargetMode.toMode : TargetMode → Mode
  | .off => .off
  | .stopped => .stopped
  | .hold => .hold
  | .rate => .rate
  | .follow => .follow

/-- HOLD, RATE, FOLLOW and MOVE (00, Terms: active mode). -/
def isActive : Mode → Bool
  | .hold => true
  | .rate => true
  | .follow => true
  | .move => true
  | _ => false

/-- HOLD, RATE or FOLLOW: the modes that PAUSE holds and resumes (R131, R133, R135). -/
def isHoldable : Mode → Bool
  | .hold => true
  | .rate => true
  | .follow => true
  | _ => false

/-- The mode byte of the axis state record. -/
def modeCode : Mode → Byte
  | .off => 0
  | .stopped => 1
  | .hold => 2
  | .rate => 3
  | .follow => 4
  | .move => 5
  | .safe => 6

/-! ### Tuning fields (R32) -/

def boolInt (b : Bool) : Int := if b then 1 else 0

/-- The value of field `n` as TUNE and TUNE_READ carry it. -/
def Tuning.field (r : Tuning) (n : Nat) : Int :=
  match n with
  | 0 => r.kp
  | 1 => r.ki
  | 2 => r.kr
  | 3 => r.kf
  | 4 => r.ffSign
  | 5 => r.d
  | 6 => r.n
  | 7 => r.umax
  | 8 => r.udamp
  | 9 => r.l
  | 10 => r.imax
  | 11 => r.rmax
  | 12 => r.amax
  | 13 => r.jmin
  | 14 => r.jmax
  | 15 => r.pinLimit
  | 16 => r.satLimit
  | 17 => r.followShift
  | 18 => r.levelShift
  | 19 => r.levelCap
  | 20 => r.coastLimit
  | 21 => r.usafe
  | 22 => r.ks
  | 23 => boolInt (r.killTiming = .next)
  | 24 => boolInt (r.killEffect = .pause)
  | 25 => r.reportEvery
  | 26 => r.markAngle
  | 27 => boolInt r.markUp
  | 28 => boolInt r.markDown
  | 29 => r.gyroBias
  | _ => 0

/-- The record with field `n` set to a value in its range. -/
def Tuning.setField (r : Tuning) (n : Nat) (v : Int) : Tuning :=
  match n with
  | 0 => { r with kp := v.toNat }
  | 1 => { r with ki := v.toNat }
  | 2 => { r with kr := v.toNat }
  | 3 => { r with kf := v.toNat }
  | 4 => { r with ffSign := v }
  | 5 => { r with d := v.toNat }
  | 6 => { r with n := v.toNat }
  | 7 => { r with umax := v.toNat }
  | 8 => { r with udamp := v.toNat }
  | 9 => { r with l := v.toNat }
  | 10 => { r with imax := v.toNat }
  | 11 => { r with rmax := v.toNat }
  | 12 => { r with amax := v.toNat }
  | 13 => { r with jmin := v }
  | 14 => { r with jmax := v }
  | 15 => { r with pinLimit := v.toNat }
  | 16 => { r with satLimit := v.toNat }
  | 17 => { r with followShift := v.toNat }
  | 18 => { r with levelShift := v.toNat }
  | 19 => { r with levelCap := v.toNat }
  | 20 => { r with coastLimit := v.toNat }
  | 21 => { r with usafe := v.toNat }
  | 22 => { r with ks := v.toNat }
  | 23 => { r with killTiming := if v = 0 then .immediate else .next }
  | 24 => { r with killEffect := if v = 0 then .halt else .pause }
  | 25 => { r with reportEvery := v.toNat }
  | 26 => { r with markAngle := v }
  | 27 => { r with markUp := decide (v ≠ 0) }
  | 28 => { r with markDown := decide (v ≠ 0) }
  | 29 => { r with gyroBias := v }
  | _ => r

/-- The lowest and the highest value of field `n` taken alone (R32; R33 step 3 for Udamp and Usafe). -/
def fieldBounds (n : Nat) : Int × Int :=
  match n with
  | 0 => (0, 65535)
  | 1 => (0, 65535)
  | 2 => (0, 65535)
  | 3 => (0, 65535)
  | 4 => (-1, 1)
  | 5 => (0, 63)
  | 6 => (1, 8)
  | 7 => (1, 2000)
  | 8 => (0, 2000)
  | 9 => (1, 2000)
  | 10 => (0, 1073741824)
  | 11 => (1, 32767)
  | 12 => (1, 32767)
  | 15 => (1, 65535)
  | 16 => (1, 65535)
  | 17 => (4, 16)
  | 18 => (6, 16)
  | 19 => (1, 65535)
  | 20 => (1, 65535)
  | 21 => (0, 2000)
  | 22 => (0, 65535)
  | 23 => (0, 1)
  | 24 => (0, 1)
  | 25 => (0, 255)
  | 27 => (0, 1)
  | 28 => (0, 1)
  | 29 => (-1024, 1023)
  | _ => (int32Min, int32Max)

/-- A value in its field's range, taken alone (R32, R33 step 3). -/
def fieldInRange (n : Nat) (v : Int) : Bool :=
  (decide ((fieldBounds n).1 ≤ v) && decide (v ≤ (fieldBounds n).2)) &&
  match n with
  | 4 => decide (v ≠ 0)
  | 6 => decide (v = 1 ∨ v = 2 ∨ v = 4 ∨ v = 8)
  | _ => true

/-- A field number 0..29 that applies to the axis's kind (R33 step 2). -/
def fieldApplies (n : Nat) (k : Axis) : Bool :=
  decide (n < 30) && (if isHeading k then !(n == 18 || n == 19 || n == 20) else n != 17)

/-- The cross-checks of R33 step 5. -/
def Tuning.crossOk (r : Tuning) : Bool :=
  decide (r.jmin < r.jmax) && decide (r.udamp ≤ r.umax) && decide (r.usafe ≤ r.umax)

/-- A record within every range of R32, cross-checks included. -/
def Tuning.ok (r : Tuning) : Bool :=
  (List.range 30).all (fun n => fieldInRange n (r.field n)) && r.crossOk

/-- The int32 value that field `n` has in a profile image (R182). An image codes a field of two named values as R190 reads it back: 0 for
the value that R32 names first. The marks' directions, "on or off" in R32, are therefore 0 for on and 1 for off, where 9.9's code, which is
TUNE's, is the other way round (DEDUCED: notes/assumptions/31.md). -/
def Tuning.imageField (r : Tuning) (n : Nat) : Int :=
  match n with
  | 27 => boolInt !r.markUp
  | 28 => boolInt !r.markDown
  | _ => r.field n

/-- The value, in the code of `Tuning.field`, that a loaded int32 gives field `n` before the cross-clamps. Of two named values 0 is the
first that R32 names and any other the second: a loaded 0 in markUp or markDown is on (R190, Tuning). -/
def loadedField (n : Nat) (v : Int) : Int :=
  match n with
  | 4 => if v < 0 then -1 else 1
  | 6 => if v < 2 then 1 else if v < 4 then 2 else if v < 8 then 4 else 8
  | 23 => boolInt (decide (v ≠ 0))
  | 24 => boolInt (decide (v ≠ 0))
  | 27 => boolInt (decide (v = 0))
  | 28 => boolInt (decide (v = 0))
  | _ => clampInt v (fieldBounds n).1 (fieldBounds n).2

/-- Umax has been clamped; Udamp and Usafe are clamped to 0..Umax; Jmin and Jmax are put in order (R190, Tuning). -/
def Tuning.crossClamp (r : Tuning) : Tuning :=
  let r := { r with udamp := min r.udamp r.umax, usafe := min r.usafe r.umax }
  if r.jmin < r.jmax then r
  else if r.jmin = int32Max then { r with jmin := int32Max - 1, jmax := int32Max }
  else { r with jmax := r.jmin + 1 }

/-- A tuning record from 30 loaded int32 values (R190). -/
def Tuning.ofLoaded (vs : List Int) : Tuning :=
  (vs.zipIdx.foldl (fun r p => r.setField p.2 (loadedField p.2 p.1)) (Tuning.reset 1)).crossClamp

/-! ### Cue selectors (05, section 5.2; 09, selector codes) -/

/-- The selector of a code and a parameter in its range, or nothing (R104, R173). -/
def selectorOf (code param : Byte) : Option Selector :=
  match code.toNat with
  | 0 => some .none
  | 1 => (axisOfIndex param.toNat).map .segmentDone
  | 2 => (axisOfIndex param.toNat).map .mark
  | 3 => match param.toNat with | 0 => some (.trigger .trig0) | 1 => some (.trigger .trig1) | _ => none
  | 4 => some .kill
  | 5 => match param.toNat with | 1 => some (.alert .one) | 2 => some (.alert .two) | _ => none
  | _ => none

/-- A loaded selector: an unknown code is NONE, a parameter is clamped into its range (R190, Cue sources). -/
def loadedSelector (code param : Byte) : Selector :=
  match code.toNat with
  | 1 => .segmentDone ((axisOfIndex param.toNat).getD .roll)
  | 2 => .mark ((axisOfIndex param.toNat).getD .roll)
  | 3 => if param.toNat = 0 then .trigger .trig0 else .trigger .trig1
  | 4 => .kill
  | 5 => if param.toNat ≤ 1 then .alert .one else .alert .two
  | _ => .none

def lineIndex : TrigLine → Byte
  | .trig0 => 0
  | .trig1 => 1

def levelByte : Level → Byte
  | .one => 1
  | .two => 2

/-- A selector's code and parameter bytes; the parameter of NONE and KILL is 0. -/
def selectorBytes : Selector → List Byte
  | .none => [0, 0]
  | .segmentDone a => [1, byteOf (axisIndex a)]
  | .mark a => [2, byteOf (axisIndex a)]
  | .trigger l => [3, lineIndex l]
  | .kill => [4, 0]
  | .alert l => [5, levelByte l]

/-! ### Queue entries (R71) -/

/-- The greatest duration, DWELL count and timeout. -/
def maxFrames : Nat := 1048576

/-- A duration or DWELL count of 0 is stored as 1 (R71). -/
def storedFrames (n : Word) : Nat := if n.toNat = 0 then 1 else n.toNat

def shapeOf (flags : Byte) : Shape := if flags.getLsbD 0 then .eased else .linear
def endModeOf (flags : Byte) : EndMode := if flags.getLsbD 1 then .follow else .hold

/-- The fields that a presence mask names, laid out by axis: `ds` holds one value per axis of the mask, in index order. -/
def spreadOffsets {α : Type} (mask : Byte) (ds : List α) : Five (Option α) :=
  let at' (k : Axis) : Option α :=
    if mask.getLsbD (axisIndex k) then
      ds[((allAxes.take (axisIndex k)).filter (fun q => mask.getLsbD (axisIndex q))).length]?
    else none
  ⟨at' .swing, at' .lift, at' .pan, at' .tilt, at' .roll⟩

/-- MODE entry targets: STOPPED, HOLD, RATE, FOLLOW (R71; codes of 09, Queue entries). -/
def entryTarget (b : Byte) : Option TargetMode :=
  match b.toNat with
  | 1 => some .stopped
  | 2 => some .hold
  | 3 => some .rate
  | 4 => some .follow
  | _ => none

/-- The tag of an entry as sent. -/
def rawEntryTag : RawEntry → Byte
  | .goto tag _ _ _ _ => tag
  | .shift tag _ _ _ _ => tag
  | .dwell tag _ => tag
  | .wait tag _ _ _ => tag
  | .cue tag _ _ => tag
  | .mode tag _ _ => tag

/-- An entry as admitted, or nothing when it fails its admission check (R71). Bits of a flags byte that 09 gives no meaning are
not examined, nor is the timeout field of a WAIT whose flags say that it has none: such a WAIT is admitted without a timeout, whatever
stands in the field (DEDUCED: notes/assumptions/17.md). -/
def admitBody : RawEntry → Option EntryBody
  | .goto _ m w dn f =>
    if maskInFive m && w.toNat < 64 && dn.toNat ≤ maxFrames then
      some (.goto (axisSet m) w.toNat (storedFrames dn) (shapeOf f) (endModeOf f) (f.getLsbD 2))
    else none
  | .shift _ m ds dn f =>
    if maskInFive m && dn.toNat ≤ maxFrames then
      some (.shift (spreadOffsets m ds) (storedFrames dn) (shapeOf f) (endModeOf f) (f.getLsbD 2))
    else none
  | .dwell _ n => if n.toNat ≤ maxFrames then some (.dwell (storedFrames n)) else none
  | .wait _ m f t =>
    if m != 0 && (!f.getLsbD 2 || (1 ≤ t.toNat && t.toNat ≤ maxFrames)) then
      some (.wait m (f.getLsbD 0) (f.getLsbD 1) (if f.getLsbD 2 then some t.toNat else none))
    else none
  | .cue _ s c => some (.cue s c)
  | .mode _ m t =>
    if maskInFive m then (entryTarget t).map (.mode (axisSet m)) else none

def EntryBody.kind : EntryBody → EntryKind
  | .goto _ _ _ _ _ _ => .goto
  | .shift _ _ _ _ _ => .shift
  | .dwell _ => .dwell
  | .wait _ _ _ _ => .wait
  | .cue _ _ => .cue
  | .mode _ _ => .mode

def entryKindCode : EntryKind → Byte
  | .goto => 1
  | .shift => 2
  | .dwell => 3
  | .wait => 4
  | .cue => 5
  | .mode => 6

end Sys2Proof.Machine
end

