-- ==== Sys2Proof/Machine/SweepUnit.lean ====
section
/-! DEFINITION. The Alignment Sweep Unit (chapter 6): acceptance, counted computations, windows, evaluation, abort. -/

namespace Sys2Proof.Machine

/-- A sweep is running on axis `k` (R39, R107). -/
def sweeping (s : State) (k : Axis) : Bool := s.sw.running && decide (s.sw.axis = k)

def sweepCode : SweepOutcome → Byte
  | .none => 0
  | .done => 1
  | .doneGapped => 2
  | .noWindow => 3
  | .aborted => 4

/-- D written into the active tuning record of an axis. -/
def State.setActiveD (s : State) (k : Axis) (d : Nat) : State :=
  s.setAxis k { s.axis k with active := { (s.axis k).active with d := d } }

/-- D written into the staged tuning record of an axis. -/
def State.setStagedD (s : State) (k : Axis) (d : Nat) : State :=
  s.setAxis k { s.axis k with staged := { (s.axis k).staged with d := d } }

/-- The end of a sweep: the last result record, IDLE, and the OP_DONE notice (R108, R112, R113, R179). `d` is the D left in
force. -/
def State.endSweep (s : State) (outcome : SweepOutcome) (d : Nat) (first last : Option Nat) : State :=
  let s : State := { s with
    sw := { s.sw with running := false, last := ⟨outcome, s.sw.axis, d, first, last, s.le.frameNo⟩ } }
  s.noticeDone .sweep (byteOf (axisIndex s.sw.axis)) (sweepCode outcome) (byteOf d)

/-- The running sweep ends ABORTED: saved D is written into the active D, the staged D is left (R113). -/
def State.abortSweep (s : State) : State :=
  (s.setActiveD s.sw.axis s.sw.savedD).endSweep .aborted s.sw.savedD none none

/-- Axis `k` leaves HOLD: a sweep running on it ends ABORTED (R113). -/
def State.leaveHold (s : State) (k : Axis) : State := if sweeping s k then s.abortSweep else s

/-- The good set of R112: the values Dlo..Dhi whose residual is at or below Q, in rising order. -/
def goodSet (w : Sweep) : List Nat :=
  (List.range (w.dhi + 1)).filter
    (fun d => decide (w.dlo ≤ d) && decide ((w.results.getD d 0).toNat ≤ w.q.toNat))

/-- The evaluation at the end of the window of Dhi (R112). -/
def State.evaluateSweep (s : State) : State :=
  match goodSet s.sw with
  | [] => (s.setActiveD s.sw.axis s.sw.savedD).endSweep .noWindow s.sw.savedD none none
  | first :: rest =>
    let last := (first :: rest).getLastD first
    let d := (first + last) / 2
    let outcome : SweepOutcome := if rest.length + 1 = last - first + 1 then .done else .doneGapped
    ((s.setActiveD s.sw.axis d).setStagedD s.sw.axis d).endSweep outcome d (some first) (some last)

/-- The window of current D is complete: its residual is recorded, and D steps or the sweep is evaluated (R111). -/
def State.completeWindow (s : State) : State :=
  let s : State := { s with sw := { s.sw with results := s.sw.results.set s.sw.currentD (wordOfNat s.sw.sum) } }
  if s.sw.currentD < s.sw.dhi then
    let d := s.sw.currentD + 1
    { (s.setActiveD s.sw.axis d) with sw := { s.sw with currentD := d, count := 0, sum := 0 } }
  else s.evaluateSweep

/-- A counted computation adds |g| to the sum and may complete the window (R110, R111). -/
def State.countSweep (s : State) (g : Int) : State :=
  let s : State := { s with sw := { s.sw with sum := min (s.sw.sum + g.natAbs) 4294967295, count := s.sw.count + 1 } }
  if s.sw.wn ≤ s.sw.count then s.completeWindow else s

/-- SWEEP accepted on axis `k`: context, entries Dlo..Dhi, active D, RUNNING (R109). -/
def State.startSweep (s : State) (k : Axis) (dlo dhi wn : Nat) (q : Word) : State :=
  let savedD := (s.axis k).active.d
  { (s.setActiveD k dlo) with
    sw :=
      { s.sw with
        running := true, axis := k, dlo := dlo, dhi := dhi, wn := wn, q := q, savedD := savedD, currentD := dlo,
        count := 0, sum := 0
        results := s.sw.results.mapIdx (fun d r => if dlo ≤ d ∧ d ≤ dhi then 0 else r) } }

end Sys2Proof.Machine
end

