-- ==== Sys2Proof/Machine/Axes.lean ====
section
/-! DEFINITION. Axis modes (chapter 2): the transition table, entry captures, aborts of segments and launches and their reports to
the Move Sequencer, SAFE, the kill effects' mode changes. None of these operations lets the head of the queue move: that comes
after, in `settle` (notes/assumptions/16.md). -/

namespace Sys2Proof.Machine

/-! ### Segment reports (R79) -/

/-- A segment report reaches the Move Sequencer: when its serial is the waiting head's and its axis is outstanding, the axis
leaves the set, and an abort sets the aborted flag (R79). -/
def State.reportSegment (s : State) (k : Axis) (serial : Half) (aborted : Bool) : State :=
  match s.ms.queue, s.ms.phase with
  | e :: _, .waitingSegments out ab =>
    if e.serial = serial ∧ hasAxis out k = true then
      { s with ms := { s.ms with phase := .waitingSegments (out &&& ~~~(axisSetOf (fun q => q = k))) (ab || aborted) } }
    else s
  | _, _ => s

/-- The serials of the segment and the pending launch that an axis holds, the segment first. -/
def heldSerials (a : AxisRec) : List Half :=
  (a.segment.map Segment.serial).toList ++ (a.launch.map Segment.serial).toList

/-- Segment and pending launch leave the axis as aborted, each reported (R26, R80). -/
def State.abortMotion (s : State) (k : Axis) : State :=
  let a := s.axis k
  (heldSerials a).foldl (fun s n => s.reportSegment k n true) (s.setAxis k { a with segment := none, launch := none })

/-! ### Entry captures (R24, R25, R26) -/

/-- The captures of an entry from OFF, STOPPED or SAFE (R24). -/
def entryCapture (a : AxisRec) : AxisRec :=
  { a with
    t := a.w, i := 0, uPrev := 0, rdEff := 0, rdTarget := 0, satFlag := .none, pinState := .none, satCount := 0,
    pinCount := 0, coastCount := 0 }

/-- The follow offset captured on the way into FOLLOW (R26). -/
def followCapture (a : AxisRec) : AxisRec := { a with o := BitVec.ofInt 32 (wrapDiff a.t a.f) }

/-- The axis enters the active mode `m` from OFF, STOPPED or SAFE (R24, R26). -/
def enterFromInactive (a : AxisRec) (m : Mode) : AxisRec :=
  let a := { entryCapture a with mode := m }
  if m = .follow then followCapture a else a

/-- The axis passes from one active mode to another (R25, R26). -/
def passBetweenActive (a : AxisRec) (m : Mode) : AxisRec :=
  let a := if m = .rate then { a with rdEff := 0, rdTarget := 0 } else a
  let a := { a with mode := m }
  if m = .follow then followCapture a else a

/-! ### The transition table (R23) -/

inductive Transition where
  | noChange | made | refused
deriving DecidableEq, Repr

/-- What a MODE request or a queue MODE entry makes of an axis in mode `m` (R23). -/
def transition (m : Mode) (target : TargetMode) : Transition :=
  match m, target with
  | .off, .off => .noChange
  | .off, .stopped => .made
  | .off, _ => .refused
  | .stopped, .stopped => .noChange
  | .stopped, _ => .made
  | .safe, .off => .made
  | .safe, .stopped => .made
  | .safe, _ => .refused
  | .hold, .hold => .noChange
  | .rate, .rate => .noChange
  | .follow, .follow => .noChange
  | _, _ => .made

/-- The axis record after a transition that is made, its captures taken (R23 to R26). -/
def transitioned (a : AxisRec) (target : TargetMode) : AxisRec :=
  match target with
  | .off => { a with mode := .off }
  | .stopped => { a with mode := .stopped }
  | t => if isActive a.mode then passBetweenActive a t.toMode else enterFromInactive a t.toMode

/-- A transition that is made: segment and launch aborted, a sweep ended when the axis leaves HOLD, the mode and its captures
written (R23, R26, R113). -/
def State.makeTransition (s : State) (k : Axis) (target : TargetMode) : State :=
  let s := s.abortMotion k
  let s := if (s.axis k).mode = .hold then s.leaveHold k else s
  s.setAxis k (transitioned (s.axis k) target)

/-- The transition of R23 applied to axis `k`, if the table makes one. -/
def State.applyTransition (s : State) (k : Axis) (target : TargetMode) : State :=
  match transition (s.axis k).mode target with
  | .made => s.makeTransition k target
  | _ => s

/-! ### SAFE (R28, R29) -/

/-- An axis in HOLD, RATE, FOLLOW or MOVE enters SAFE at a level-2 taking; others keep their mode (R28). -/
def State.enterSafe (s : State) (k : Axis) : State :=
  if isActive (s.axis k).mode then
    let s := s.abortMotion k
    let s := s.leaveHold k
    s.setAxis k { s.axis k with mode := .safe, jlock := (s.axis k).j }
  else s

/-- The mode that a resolve restores: a saved MOVE returns as HOLD (R29). -/
def restoredMode (m : Mode) : Mode := if m = .move then .hold else m

/-- An axis still in SAFE returns to the active mode saved for it (R29, R152). -/
def State.returnFromSafe (s : State) (k : Axis) (saved : Mode) : State :=
  s.setAxis k (enterFromInactive (s.axis k) (restoredMode saved))

/-! ### Kill effects (R30, R131) -/

/-- The HALT effect: STOPPED from whatever mode, segment and launch aborted, a sweep ended; the phase becomes HALTED (R30, R131). -/
def State.killHalt (s : State) (k : Axis) : State :=
  let s := s.abortMotion k
  let s := s.leaveHold k
  s.setAxis k { s.axis k with mode := .stopped, killPhase := .halted }

/-- The PAUSE effect: a segment in MOVE is aborted into HOLD, a pending launch is removed as aborted; the phase becomes PAUSED
(R131). -/
def State.killPause (s : State) (k : Axis) : State :=
  let s := s.abortMotion k
  let a := s.axis k
  s.setAxis k { (if a.mode = .move then passBetweenActive a .hold else a) with killPhase := .paused }

/-- The axis's kill effect acts, as its active record has it at that moment (R128, R131). -/
def State.killAct (s : State) (k : Axis) : State :=
  match (s.axis k).active.killEffect with
  | .halt => s.killHalt k
  | .pause => s.killPause k

/-! ### Launches (R31, R80) -/

/-- A segment is handed to the Loop Engine as the axis's pending launch; one already there is superseded, and so aborted (R31). -/
def State.handLaunch (s : State) (k : Axis) (g : Segment) : State :=
  let a := s.axis k
  let s := s.setAxis k { a with launch := some g }
  match a.launch with
  | some old => s.reportSegment k old.serial true
  | none => s

end Sys2Proof.Machine
end

