-- ==== Sys2Proof/Machine/Sensors.lean ====
section
/-! DEFINITION. Sensor Intake (chapter 1): record assembly and checks, acceptance, staleness, gravity validity, and which reading
each axis takes (R19). -/

namespace Sys2Proof.Machine

/-! ### Sources of each axis (R19) -/

/-- The inertial unit whose gyro measures the axis's payload rate. -/
def feedbackUnit : Axis → SenUnit
  | .swing => .tip
  | .lift => .tip
  | _ => .head

/-- The feedback gyro rate of an axis in its unit's slot. -/
def feedbackRate (k : Axis) (sl : InertialSlot) : Int :=
  match k with
  | .swing => sl.yaw.toInt
  | .lift => sl.pitch.toInt
  | .pan => sl.yaw.toInt
  | .tilt => sl.pitch.toInt
  | .roll => sl.roll.toInt

/-- The base component of an axis in a base history entry. -/
def baseComponent (k : Axis) (t : Triple) : Int :=
  match k with
  | .swing => t.yaw.toInt
  | .lift => t.pitch.toInt
  | .pan => t.yaw.toInt
  | .tilt => t.pitch.toInt
  | .roll => t.roll.toInt

/-- The level angle named for a level axis, in its unit's slot. -/
def gravityRef (k : Axis) (sl : InertialSlot) : Word :=
  match k with
  | .roll => sl.levelRoll
  | _ => sl.levelPitch

/-- The gravity reference of a unit is valid: the unit is fresh and its accel magnitude lies within gravBand of 1000 mg (R8).
BASE has none. -/
def gravityValid (s : State) (u : SenUnit) : Bool :=
  let p := s.si.sen.get u
  decide (u ≠ .base) && p.fresh && decide (((p.slot.accel.toNat : Int) - 1000).natAbs ≤ s.cl.setup.gravBand)

/-! ### Staleness (R6) -/

/-- The unit whose staleness limit a port takes. -/
def limitUnit : StalePort → SenUnit
  | .sen u => u
  | .enc k => feedbackUnit k

/-- A port's staleness limit in wall-time units: n lf stand for n × 488.28125 µs. -/
def staleLimitUnits (s : State) (p : StalePort) : Nat :=
  s.cl.setup.staleLimit.get (limitUnit p) * Config.unitsPerLoopFrame

/-- The unit or encoder becomes stale and its timer stops. -/
def State.makeStale (s : State) (p : StalePort) : State :=
  match p with
  | .sen u => s.setSen u { s.si.sen.get u with fresh := false, elapsed := 0 }
  | .enc k => s.setEnc k { s.si.enc.get k with fresh := false, elapsed := 0 }

def portFresh (s : State) : StalePort → Bool
  | .sen u => (s.si.sen.get u).fresh
  | .enc k => (s.si.enc.get k).fresh

def portElapsed (s : State) : StalePort → Nat
  | .sen u => (s.si.sen.get u).elapsed
  | .enc k => (s.si.enc.get k).elapsed

/-- A port's staleness timer has reached its limit: the port is fresh and its elapsed time equals or exceeds the limit (R6). -/
def staleDue (s : State) (p : StalePort) : Bool := portFresh s p && decide (staleLimitUnits s p ≤ portElapsed s p)

/-- The ports that take a unit's staleness limit. -/
def portsOfUnit (u : SenUnit) : List StalePort :=
  match u with
  | .base => [.sen .base]
  | .tip => [.sen .tip, .enc .swing, .enc .lift]
  | .head => [.sen .head, .enc .pan, .enc .tilt, .enc .roll]

/-- A new limit of unit `u` has been written: a fresh port whose elapsed time equals or exceeds it becomes stale (R6). -/
def State.rejudgeStale (s : State) (u : SenUnit) : State :=
  (portsOfUnit u).foldl (fun s p => if staleDue s p then s.makeStale p else s) s

/-! ### Record assembly (R1, R9, R125) -/

/-- A two-state assembler with complete records of `n` bytes: the records that the bytes complete, in order, and the bytes then
held (none is IDLE). -/
def assemble (n : Nat) : List Byte → List Byte → List (List Byte) × List Byte
  | held, [] => ([], held)
  | held, b :: bs =>
    let now := held ++ [b]
    if n ≤ now.length then
      let r := assemble n [] bs
      (now :: r.1, r.2)
    else assemble n now bs

/-- Byte `i` of a record. -/
def byteAt (r : List Byte) (i : Nat) : Byte := r.getD i 0

def halfAt (r : List Byte) (i : Nat) : Half := halfOf (byteAt r i) (byteAt r (i + 1))

def wordAt (r : List Byte) (i : Nat) : Word :=
  wordOf (byteAt r i) (byteAt r (i + 1)) (byteAt r (i + 2)) (byteAt r (i + 3))

/-! ### Inertial records (R3, R4, R5) -/

/-- A complete inertial record passes R3: CRC, header 0xB0, unit fault bit clear. -/
def inertialGood (r : List Byte) : Bool :=
  (crc8 (r.take 19) == byteAt r 19) && (byteAt r 0 == 0xB0) && !(byteAt r 18).getLsbD 0

/-- The slot contents of an accepted record (09, Inertial sample record). -/
def inertialSlot (r : List Byte) : InertialSlot where
  yaw := halfAt r 2
  pitch := halfAt r 4
  roll := halfAt r 6
  levelPitch := wordAt r 8
  levelRoll := wordAt r 12
  accel := halfAt r 16
  status := byteAt r 18
  seq := byteAt r 1

/-- The records missed between the sequence reference and an accepted sequence number (R4). -/
def missedBetween (ref : Option Byte) (seq : Byte) : Nat :=
  match ref with
  | none => 0
  | some r => (seq - r - 1).toNat

/-- An accepted record replaces the slot, restarts the staleness timer and makes the unit fresh (R4, R5). -/
def InertialPort.accept (p : InertialPort) (r : List Byte) : InertialPort :=
  { p with
    slot := inertialSlot r
    fresh := true
    elapsed := 0
    seqRef := some (byteAt r 1)
    accepted := satInc p.accepted
    missed := satAdd p.missed (missedBetween p.seqRef (byteAt r 1)) }

/-- A complete inertial record: rejected, discarded as a duplicate, or accepted (R3, R4, R5). -/
def InertialPort.take (p : InertialPort) (r : List Byte) : InertialPort :=
  if inertialGood r then
    if p.seqRef = some (byteAt r 1) then { p with duplicate := satInc p.duplicate }
    else p.accept r
  else { p with rejected := satInc p.rejected }

/-! ### Encoder records (R9) -/

/-- The position field of an encoder record (09, Encoder record): bits 23..4 of its first three bytes. -/
def encoderPosition (r : List Byte) : BitVec 20 :=
  ((byteAt r 0 ++ byteAt r 1) ++ byteAt r 2 : BitVec 24).extractLsb' 4 20

/-- A complete encoder record passes: CRC, error bit clear, three zero bits. -/
def encoderGood (r : List Byte) : Bool :=
  (crc8 (r.take 3) == byteAt r 3) && ((byteAt r 2).extractLsb' 0 4 == (0 : BitVec 4))

/-- A complete encoder record: rejected or accepted (R9). -/
def EncoderPort.take (p : EncoderPort) (r : List Byte) : EncoderPort :=
  if encoderGood r then
    { p with position := encoderPosition r, newPos := true, fresh := true, elapsed := 0, accepted := satInc p.accepted }
  else { p with rejected := satInc p.rejected }

/-! ### Park and unpark (R16) -/

/-- PARK: every assembler of the eight sensor ports returns to IDLE, nothing counted. -/
def SensorIntake.close (si : SensorIntake) : SensorIntake where
  sen := si.sen.mapUnit (fun _ p => { p with held := [] })
  enc := si.enc.mapAxis (fun _ p => { p with held := [] })

/-- UNPARK: the ports reopen with assemblers IDLE, every unit and encoder stale with its timer stopped, every sequence reference
absent. -/
def SensorIntake.reopen (si : SensorIntake) : SensorIntake where
  sen := si.sen.mapUnit (fun _ p => { p with held := [], fresh := false, elapsed := 0, seqRef := none })
  enc := si.enc.mapAxis (fun _ p => { p with held := [], fresh := false, elapsed := 0 })

end Sys2Proof.Machine
end

