-- ==== Sys2Proof/Machine/Flags.lean ====
section
/-! DEFINITION. Flags and conditions: the 26 alert sources and their truths (R139, R140, R65), the affected axes and parameter formed
at a taking, and the cue flags with the condition of a WAIT on them (R82, R94, R97). -/

namespace Sys2Proof.Machine

/-! ### The sources in number order (R139) -/

/-- Sources 0..5. -/
def globalSources : List Source := [.test, .kill, .linkSilent, .horizonCoast, .baseStale, .storeParity]

/-- Sources 6 + 4k .. 9 + 4k. -/
def axisSources (k : Axis) : List Source := [.feedbackStale k, .pinned k, .saturated k, .driveFault k]

/-- The 26 sources, source n at place n. -/
def allSources : List Source := globalSources ++ allAxes.flatMap axisSources

/-- A source's number, which is its rank in arbitration. -/
def sourceNumber : Source → Nat
  | .test => 0
  | .kill => 1
  | .linkSilent => 2
  | .horizonCoast => 3
  | .baseStale => 4
  | .storeParity => 5
  | .feedbackStale k => 6 + 4 * axisIndex k
  | .pinned k => 7 + 4 * axisIndex k
  | .saturated k => 8 + 4 * axisIndex k
  | .driveFault k => 9 + 4 * axisIndex k

/-- The source of a number. -/
def sourceOfNumber (n : Nat) : Option Source := allSources[n]?

/-- TEST, STORE_PARITY and DRIVE_FAULT_k are events; the others are conditions (R139). -/
def isEvent : Source → Bool
  | .test => true
  | .storeParity => true
  | .driveFault _ => true
  | _ => false

def Sources.get {α : Type} (x : Sources α) : Source → α
  | .test => x.test
  | .kill => x.kill
  | .linkSilent => x.linkSilent
  | .horizonCoast => x.horizonCoast
  | .baseStale => x.baseStale
  | .storeParity => x.storeParity
  | .feedbackStale k => x.feedbackStale.get k
  | .pinned k => x.pinned.get k
  | .saturated k => x.saturated.get k
  | .driveFault k => x.driveFault.get k

def Sources.set {α : Type} (x : Sources α) (src : Source) (v : α) : Sources α :=
  match src with
  | .test => { x with test := v }
  | .kill => { x with kill := v }
  | .linkSilent => { x with linkSilent := v }
  | .horizonCoast => { x with horizonCoast := v }
  | .baseStale => { x with baseStale := v }
  | .storeParity => { x with storeParity := v }
  | .feedbackStale k => { x with feedbackStale := x.feedbackStale.set k v }
  | .pinned k => { x with pinned := x.pinned.set k v }
  | .saturated k => { x with saturated := x.saturated.set k v }
  | .driveFault k => { x with driveFault := x.driveFault.set k v }

/-- One item per source, computed from the source and the item there. -/
def Sources.mapSource {α β : Type} (g : Source → α → β) (x : Sources α) : Sources β where
  test := g .test x.test
  kill := g .kill x.kill
  linkSilent := g .linkSilent x.linkSilent
  horizonCoast := g .horizonCoast x.horizonCoast
  baseStale := g .baseStale x.baseStale
  storeParity := g .storeParity x.storeParity
  feedbackStale := x.feedbackStale.mapAxis (fun k => g (.feedbackStale k))
  pinned := x.pinned.mapAxis (fun k => g (.pinned k))
  saturated := x.saturated.mapAxis (fun k => g (.saturated k))
  driveFault := x.driveFault.mapAxis (fun k => g (.driveFault k))

def State.source (s : State) (src : Source) : SourceState := s.alc.sources.get src

def State.setSource (s : State) (src : Source) (x : SourceState) : State :=
  { s with alc := { s.alc with sources := s.alc.sources.set src x } }

/-! ### Truths (R65, R140) -/

/-- A level axis in HOLD, RATE, FOLLOW or MOVE with coastCount ≥ coastLimit: the coast test of R65. -/
def coasts (s : State) (k : Axis) : Bool :=
  let a := s.axis k
  !isHeading k && isActive a.mode && decide (a.active.coastLimit ≤ a.coastCount.toNat)

/-- An axis in HOLD, RATE, FOLLOW or MOVE whose active Kf is not 0 (R139, source 4). -/
def usesBase (s : State) (k : Axis) : Bool :=
  let a := s.axis k
  isActive a.mode && decide (a.active.kf ≠ 0)

/-- Which of an axis's feedback unit and encoder are stale: 0 neither, 1 the unit, 2 the encoder, 3 both (R139). -/
def feedbackStaleness (s : State) (k : Axis) : Nat :=
  (if (s.si.sen.get (feedbackUnit k)).fresh then 0 else 1) + (if (s.si.enc.get k).fresh then 0 else 2)

/-- The truth that a condition's owner presents, as the state stands (R65, R140). Events have none. -/
def conditionTruth (s : State) : Source → Bool
  | .test => false
  | .kill => s.killAsserted
  | .linkSilent => decide (s.cl.silence = .expired)
  | .horizonCoast => allAxes.any (coasts s)
  | .baseStale => !(s.si.sen.get .base).fresh && allAxes.any (usesBase s)
  | .storeParity => false
  | .feedbackStale k =>
    (isActive (s.axis k).mode || decide ((s.axis k).mode = .safe)) && decide (feedbackStaleness s k ≠ 0)
  | .pinned k =>
    (isActive (s.axis k).mode || decide ((s.axis k).mode = .safe)) &&
      decide ((s.axis k).active.pinLimit ≤ (s.axis k).pinCount.toNat)
  | .saturated k => isActive (s.axis k).mode && decide ((s.axis k).active.satLimit ≤ (s.axis k).satCount.toNat)
  | .driveFault _ => false

/-! ### Affected axes and parameter (R139) -/

/-- The affected axes of a source, formed from the state as it stands. -/
def affectedAxes (s : State) : Source → AxisSet
  | .test => s.alc.testMask
  | .kill => 31
  | .linkSilent => axisSetOf (fun k => (s.axis k).mode = .rate)
  | .horizonCoast => axisSetOf (coasts s)
  | .baseStale => axisSetOf (usesBase s)
  | .storeParity => 0
  | .feedbackStale k => axisSetOf (fun q => q = k)
  | .pinned k => axisSetOf (fun q => q = k)
  | .saturated k => axisSetOf (fun q => q = k)
  | .driveFault k => axisSetOf (fun q => q = k)

/-- The greatest coastCount among the axes meeting the coast test. -/
def greatestCoast (s : State) : Half :=
  halfOfNat (((allAxes.filter (coasts s)).map (fun k => (s.axis k).coastCount.toNat)).foldl max 0)

/-- The parameter of a source, formed from the state as it stands; an event's is the one held since its raise. Where a LATCHED
HORIZON_COAST or FEEDBACK_STALE_k is taken after its trouble has gone, the manual states no value: a free value
(notes/assumptions/7.md). -/
def State.causeParam (s : State) (src : Source) : Half × State :=
  match src with
  | .test => ((s.source .test).param, s)
  | .kill => (0, s)
  | .linkSilent => (halfOfNat s.cl.setup.silenceLimit, s)
  | .horizonCoast => if allAxes.any (coasts s) then (greatestCoast s, s) else s.freeHalf
  | .baseStale => (0, s)
  | .storeParity => ((s.source .storeParity).param, s)
  | .feedbackStale k => if feedbackStaleness s k ≠ 0 then (halfOfNat (feedbackStaleness s k), s) else s.freeHalf
  | .pinned k => ((s.axis k).pinCount, s)
  | .saturated k => ((s.axis k).satCount, s)
  | .driveFault k => ((s.source (.driveFault k)).param, s)

/-! ### Cue flags (R94, R97) -/

/-- The cues whose selector is `sel`. -/
def cuesOf (table : List Selector) (sel : Selector) : Byte :=
  (table.zipIdx.map (fun p => if p.1 = sel then byteOf (2 ^ p.2) else 0)).foldl (· ||| ·) 0

/-- The flags written. The test of a waiting head is `State.changeCues`' (Moves.lean). -/
def State.writeCues (s : State) (cues : Byte) : State := { s with ms := { s.ms with cues := cues } }

/-- The flags after a clearing and then a setting (R83, R104). -/
def clearedAndSet (cues clear set : Byte) : Byte := (cues &&& ~~~clear) ||| set

/-- The condition of a WAIT on the flags as they stand: ANY or ALL over its mask (R82). -/
def waitHolds (cues mask : Byte) (any : Bool) : Bool :=
  if any then cues &&& mask != 0 else cues &&& mask == mask

/-- The cues a consuming WAIT clears: its mask for ALL, the set cues of its mask for ANY (R82). -/
def matchedCues (cues mask : Byte) (any : Bool) : Byte := if any then cues &&& mask else mask

end Sys2Proof.Machine
end

