-- ==== Sys2Proof/Machine/Moves.lean ====
section
/-! DEFINITION. The head of the move queue (chapter 4): progress, beginning, launches, retirement, the Done List, the test at a
change of the cues, loop frame counts, admission and flush. -/

namespace Sys2Proof.Machine

/-- Progress is allowed: RUNNING with an empty hold set (R74). -/
def progress (s : State) : Bool := s.ms.running && !s.ms.holdKill && !s.ms.holdAlert

def State.setPhase (s : State) (p : HeadPhase) : State := { s with ms := { s.ms with phase := p } }

/-! ### Retirement (R88) -/

/-- The head phase when `q` is the queue and its head has just become head (R75). -/
def freshPhase (q : List Entry) : HeadPhase := if q.isEmpty then .none else .pending

/-- A record appended to the Done List, a ring of 8 (R88). -/
def appendDone (l : List DoneRecord) (r : DoneRecord) : List DoneRecord := (l ++ [r]).drop (l.length - 7)

/-- The head retires with an outcome (R88). -/
def State.retire (s : State) (outcome : EntryOutcome) : State :=
  match s.ms.queue with
  | [] => s
  | e :: rest =>
    { s with
      ms :=
        { s.ms with
          queue := rest
          phase := freshPhase rest
          doneList := appendDone s.ms.doneList ⟨e.serial, e.tag, e.body.kind, outcome, s.le.frameNo⟩ } }

/-! ### Launching segments (R77, R78) -/

/-- S0: the current setpoint offset (R78). -/
def setpointOffset (k : Axis) (a : AxisRec) : Int := if isHeading k then wrapDiff a.t a.f else a.t.toInt

/-- S1 of a SHIFT: S0 plus the delta, clamped to a signed 32-bit value (R78). -/
def shiftedOffset (s0 : Int) (delta : Word) : Word := sat32 (s0 + delta.toInt)

/-- The end value of the entry's segment on axis `k`, absent when the axis is skipped for want of one (R77, R78). -/
def segmentEnd (s : State) (k : Axis) : EntryBody → Option Word
  | .goto mask slot _ _ _ _ =>
    if hasAxis mask k then (s.ms.waypoints[slot]?).bind (fun w => w.offsets.get k) else none
  | .shift deltas _ _ _ _ => (deltas.get k).map (shiftedOffset (setpointOffset k (s.axis k)))
  | _ => none

/-- Axis `k`'s part of a launch: skipped in OFF, STOPPED or SAFE or without an end value, otherwise handed its segment
(R77). The set of axes launched so far is carried. -/
def launchAxis (e : Entry) (dn : Nat) (shape : Shape) (endMode : EndMode) (p : State × AxisSet) (k : Axis) : State × AxisSet :=
  let a := p.1.axis k
  match segmentEnd p.1 k e.body with
  | some s1 =>
    if isActive a.mode then
      (p.1.handLaunch k ⟨e.serial, BitVec.ofInt 32 (setpointOffset k a), s1, dn, 0, shape, endMode⟩,
       p.2 ||| axisSetOf (fun q => q = k))
    else p
  | none => p

/-- GOTO and SHIFT begin: axis by axis in index order, then retirement or WAITING_SEGMENTS (R77). -/
def State.beginLaunch (s : State) (e : Entry) (dn : Nat) (shape : Shape) (endMode : EndMode) (wait : Bool) : State :=
  let p := allAxes.foldl (launchAxis e dn shape endMode) (s, 0)
  if p.2 = 0 then p.1.retire .skipped
  else if wait then p.1.setPhase (.waitingSegments p.2 false)
  else p.1.retire .done

/-! ### Beginning (R76, R81 to R84) -/

/-- A WAIT whose condition holds retires DONE, first clearing its matched cues when it consumes (R82). No WAIT is left at the head
to see that change (R95). -/
def State.retireWait (s : State) (mask : Byte) (any consume : Bool) : State :=
  (if consume then s.writeCues (s.ms.cues &&& ~~~(matchedCues s.ms.cues mask any)) else s).retire .done

/-- What a queue MODE entry makes of axis `k`: FOLLOW on a level axis is refused like a refusal of the table (R84). -/
def entryTransition (s : State) (k : Axis) (target : TargetMode) : Transition :=
  if target = .follow ∧ isHeading k = false then .refused else transition (s.axis k).mode target

/-- One axis of a queue MODE entry; whether any axis has changed so far is carried. -/
def modeAxis (target : TargetMode) (p : State × Bool) (k : Axis) : State × Bool :=
  match entryTransition p.1 k target with
  | .made => (p.1.makeTransition k target, true)
  | _ => p

/-- The head entry carries out its kind's rule (R76). -/
def State.beginEntry (s : State) (e : Entry) : State :=
  match e.body with
  | .goto _ _ dn shape endMode wait => s.beginLaunch e dn shape endMode wait
  | .shift _ dn shape endMode wait => s.beginLaunch e dn shape endMode wait
  | .dwell n => s.setPhase (.dwelling n)
  | .wait mask any consume timeout =>
    if waitHolds s.ms.cues mask any then s.retireWait mask any consume else s.setPhase (.waitingCue timeout)
  | .cue set clear => (s.writeCues (clearedAndSet s.ms.cues clear set)).retire .done
  | .mode mask target =>
    let p := (axesOf mask).foldl (modeAxis target) (s, false)
    p.1.retire (if p.2 then .done else .skipped)

/-- One move of the head when progress is allowed: a PENDING head begins, a WAIT whose condition holds retires, a waiting GOTO or
SHIFT whose outstanding set is empty retires (R76, R79, R95). Nothing when the head stays as it is. -/
def State.headStep (s : State) : Option State :=
  if progress s then
    match s.ms.queue, s.ms.phase with
    | e :: _, .pending => some (s.beginEntry e)
    | e :: _, .waitingCue _ =>
      match e.body with
      | .wait mask any consume _ =>
        if waitHolds s.ms.cues mask any then some (s.retireWait mask any consume) else none
      | _ => none
    | _ :: _, .waitingSegments out aborted =>
      if out = 0 then some (s.retire (if aborted then .aborted else .done)) else none
    | _, _ => none
  else none

/-! ### Changes of the cue flags (R94, R95) -/

/-- The test of the head after a change of the cue flags: a WAIT in WAITING_CUE whose condition now holds retires, if progress is
allowed (R95). -/
def State.testWait (s : State) : State :=
  match s.ms.phase with
  | .waitingCue _ => s.headStep.getD s
  | _ => s

/-- One change of the cue flags, tested against the head in the same event. A change that leaves every flag as it was is none
(R94, R95). -/
def State.changeCues (s : State) (cues : Byte) : State := if cues = s.ms.cues then s else (s.writeCues cues).testWait

/-- A source event: every cue whose selector matches is set, in one change (R94, R97). -/
def State.feedCue (s : State) (sel : Selector) : State := s.changeCues (s.ms.cues ||| cuesOf s.ms.cueSources sel)

/-! ### Loop frame counts (R81, R82, R91) -/

/-- A loop frame counts for a head that is DWELLING, or WAITING_CUE with a timeout, while progress is allowed. -/
def State.countFrame (s : State) : State :=
  if progress s then
    match s.ms.phase with
    | .dwelling n => if n ≤ 1 then s.retire .done else s.setPhase (.dwelling (n - 1))
    | .waitingCue (some n) => if n ≤ 1 then s.retire .timeout else s.setPhase (.waitingCue (some (n - 1)))
    | _ => s
  else s

/-! ### Admission and flush (R72, R89) -/

/-- Entries given the next serials in turn. -/
def numbered (first : Half) (es : List (Byte × EntryBody)) : List Entry :=
  es.zipIdx.map (fun p => ⟨first + halfOfNat p.2, p.1.1, p.1.2⟩)

/-- Entries appended to the tail; the first becomes the head of an empty queue (R72). -/
def State.enqueue (s : State) (es : List (Byte × EntryBody)) : State :=
  let q := s.ms.queue ++ numbered s.ms.nextSerial es
  { s with
    ms :=
      { s.ms with
        queue := q
        nextSerial := s.ms.nextSerial + halfOfNat es.length
        phase := if s.ms.queue.isEmpty then freshPhase q else s.ms.phase } }

/-- Every entry removed without outcome; the phase becomes NONE (R89). -/
def State.flush (s : State) : State := { s with ms := { s.ms with queue := [], phase := .none } }

end Sys2Proof.Machine
end

