-- ==== Sys2Proof/Machine/Alerts.lean ====
section
/-! DEFINITION. The Alert Controller (chapter 8): becoming pending, arbitration, taking, resolving, configuration; and `settle`, which
brings the Alert Controller and the head of the queue to rest after an event. -/

namespace Sys2Proof.Machine

/-! ### Becoming pending (R141, R143, R144) -/

/-- A source about to become pending: a condition whose truth has risen, or a raised event with its parameter. -/
inductive Due where
  | condition (src : Source)
  | raised (src : Source) (param : Half)
deriving DecidableEq, Repr

/-- A condition presented as true whose recorded truth is still false. -/
def risen (s : State) (src : Source) : Bool := conditionTruth s src && !(s.source src).truth

/-- The conditions whose truth has risen, in number order. -/
def risings (s : State) : List Source := allSources.filter (risen s)

/-- A condition that is no longer presented as true: the recorded truth falls, and with kind CONDITION the source ceases to be
pending (R143); a latched pending state stays (R144). -/
def fallenSource (s : State) (src : Source) (x : SourceState) : SourceState :=
  if x.truth && !conditionTruth s src then { x with truth := false, pending := x.pending && x.latched } else x

/-- Every truth that has fallen is recorded. -/
def State.dropFallen (s : State) : State :=
  { s with alc := { s.alc with sources := s.alc.sources.mapSource (fallenSource s) } }

/-- A truth that has risen is recorded. -/
def State.recordRise (s : State) (src : Source) : State := s.setSource src { s.source src with truth := true }

/-- The truths judged as the state stands: every fall and every rise is recorded; the sources that rose are to become pending
(R66, R140). -/
def State.judge (s : State) : State × List Source :=
  let s := s.dropFallen
  ((risings s).foldl State.recordRise s, risings s)

/-- A rise still makes its source pending: under LATCHED whatever the truth does meanwhile (R144), under CONDITION while the truth
stands (R143). A raise always does. -/
def stillDue (s : State) : Due → Bool
  | .condition src => (s.source src).latched || (s.source src).truth
  | .raised _ _ => true

/-- The due source becomes pending: after the change of its truth from false to true, under either kind (R143, R144), or at the
raise, whose parameter replaces the one held (R141). -/
def State.markDue (s : State) : Due → State
  | .condition src => s.setSource src { s.source src with pending := true }
  | .raised src p => s.setSource src { s.source src with pending := true, param := p }

/-! ### Hold reasons (R74) -/

def State.setHoldKill (s : State) (b : Bool) : State := { s with ms := { s.ms with holdKill := b } }
def State.setHoldAlert (s : State) (b : Bool) : State := { s with ms := { s.ms with holdAlert := b } }

/-! ### Taking (R147 to R150) -/

/-- Steps 1 to 3 of R147: the level goes into service, its cause record and its link record are written. -/
def State.recordTaking (s : State) (cause : Cause) : State :=
  match cause.level with
  | .one =>
    { s with
      alc :=
        { s.alc with
          inService1 := true, cause1 := some cause, link1 := some (s.axes.mapAxis (fun _ a => a.damp)) } }
  | .two =>
    { s with
      alc :=
        { s.alc with
          inService2 := true, cause2 := some cause, link2 := some (s.axes.mapAxis (fun _ a => a.mode)) } }

/-- The level-1 action: DAMP on each affected axis, in every mode (R149). -/
def State.dampAxes (s : State) (mask : AxisSet) : State :=
  { s with axes := s.axes.mapAxis (fun k a => if hasAxis mask k then { a with damp := true } else a) }

/-- Step 4 of R147. Level 2 adds the hold and sets its cues before any axis leaves its mode (R147, R150, R99). -/
def State.levelAction (s : State) (level : Level) (mask : AxisSet) : State :=
  match level with
  | .one => (s.dampAxes mask).feedCue (.alert .one)
  | .two =>
    (axesOf mask).foldl State.enterSafe ((s.setHoldAlert true).feedCue (.alert .two))

def State.setSeen (s : State) (level : Level) : State :=
  match level with
  | .one => { s with alc := { s.alc with seen1 := true } }
  | .two => { s with alc := { s.alc with seen2 := true } }

/-- An ALERT_TAKEN notice (R147 step 6; 09, IDENT reply and notices). -/
def State.noticeTaken (s : State) (c : Cause) : State :=
  s.offerUnasked
    ⟨0x48, 0, wordBytes c.frame ++ [levelByte c.level, byteOf (sourceNumber c.source), axisSetByte c.mask] ++ halfBytes c.param⟩

/-- A taking clears the pending state of a latched or event source; a CONDITION source keeps it (R147 step 7). -/
def State.clearTaken (s : State) (src : Source) : State :=
  let x := s.source src
  if x.latched then s.setSource src { x with pending := false } else s

/-- The taking of a source at a level, its steps in order (R147). -/
def State.take (s : State) (level : Level) (src : Source) : State :=
  let mask := affectedAxes s src
  let p := s.causeParam src
  let cause : Cause := ⟨src, level, mask, p.1, s.le.frameNo⟩
  ((((p.2.recordTaking cause).levelAction level mask).setSeen level).noticeTaken cause).clearTaken src

/-! ### Arbitration (R145, R146) -/

/-- The enabled pending source of a level with the lowest number. -/
def firstWaiting (s : State) (level : Level) : Option Source :=
  allSources.find? (fun src => let x := s.source src; x.pending && x.enable && decide (x.level = level))

/-- The taking the arbiter makes, if any: level 2 when it is free, otherwise level 1 when neither level is in service (R146). -/
def State.arbitrate (s : State) : Option State :=
  if s.alc.inService2 then none
  else
    match firstWaiting s .two with
    | some src => some (s.take .two src)
    | none => if s.alc.inService1 then none else (firstWaiting s .one).map (s.take .one)

/-! ### Coming to rest after an event -/

/-- One of the due sources, chosen freely, with the others and the state after the choice (R146: either may become pending
first). -/
def State.pickDue (s : State) (d : Due) (ds : List Due) : Due × List Due × State :=
  let p := s.choose (ds.length + 1)
  (((d :: ds)[p.1]?).getD d, (d :: ds).eraseIdx p.1, p.2)

/-- The head is PENDING: an entry has just become head, or awaits progress. -/
def headPending (s : State) : Bool := decide (s.ms.phase = .pending)

/-- The sources that have not become pending yet: those that rose in the course of the settling, and those that the event itself
left. -/
structure Waiting where
  own : List Due
  due : List Due
deriving DecidableEq, Repr

/-- The event's sources become pending one by one; where none is left, a waiting head moves. -/
def dueStep (w : Waiting) (s : State) : Option (Waiting × State) :=
  match w.due with
  | d :: ds =>
    let p := s.pickDue d ds
    some (⟨w.own, p.2.1⟩, p.2.2.markDue p.1)
  | [] => s.headStep.map (fun t => (w, t))

/-- One move towards rest: a taking; else a source that rose on the way becomes pending; else a PENDING head begins, so that the entries
of one run follow one another at one moment unless an alert they bring about holds them (R76, R95); else a source of the event becomes
pending; else a waiting head moves. Where one event both lets a waiting head move (R76, R79) and makes an alert condition true, the alert
is taken, with its hold, before the head moves; the manual calls both immediate and gives no order (DESIGN CHOICE:
notes/assumptions/32.md). -/
def settleStep (w : Waiting) (s : State) : Option (Waiting × State) :=
  match s.arbitrate with
  | some t => some (w, t)
  | none =>
    match w.own with
    | d :: ds =>
      let p := s.pickDue d ds
      some (⟨p.2.1, w.due⟩, p.2.2.markDue p.1)
    | [] =>
      match headPending s, s.headStep with
      | true, some t => some (w, t)
      | _, _ => dueStep w s

/-- The sources of a list that a rise or a raise still makes pending. -/
def stillDues (s : State) (ds : List Due) : List Due := ds.filter (stillDue s)

/-- What waits once the truths have been judged: the conditions that rose join `own`. -/
def Waiting.judged (w : Waiting) (q : State × List Source) : Waiting :=
  ⟨stillDues q.1 (q.2.map Due.condition ++ w.own), stillDues q.1 w.due⟩

/-- Moves towards rest, at most `n` of them (notes/assumptions/21.md), from a state whose truths are judged. The truths are judged after
each. -/
def settleLoop : Nat → Waiting → State → State
  | 0, _, s => s
  | n + 1, w, s =>
    match settleStep w s with
    | some p => settleLoop n (p.1.judged p.2.judge) p.2.judge.1
    | none => s

/-- A bound on the moves of `settleLoop`: each of the head's moves takes an entry on, and between two of them at most two takings
and 26 sources becoming pending stand. -/
def settleFuel (s : State) : Nat := 32 * (2 * s.ms.queue.length + 8)

/-- The Alert Controller and the head of the queue come to rest after an event that leaves `due` to become pending (events raised,
conditions that rose within it): truths rise and fall; what has risen or been raised becomes pending in a free order, arbitration
running after each (R146); takings act (R147); the head moves while it can (R76, R79). -/
def State.settle (s : State) (due : List Due) : State :=
  let q := s.judge
  settleLoop (settleFuel s) ⟨[], stillDues q.1 (q.2.map Due.condition ++ due)⟩ q.1

/-! ### Resolve (R152, R153, R154) -/

/-- Every truth is brought up to the state and what has risen becomes pending, without arbitration: used while the level that
could take is still in service (R152 step 1). -/
def State.refreshTruths (s : State) : State := s.judge.2.foldl (fun s src => s.markDue (.condition src)) s.judge.1

/-- The axes a level-2 resolve returns: affected, saved in an active mode, and in SAFE now (R152 step 1). -/
def returningAxes (s : State) : AxisSet :=
  match s.alc.cause2, s.alc.link2 with
  | some c, some saved =>
    axisSetOf (fun k => hasAxis c.mask k && isActive (saved.get k) && decide ((s.axis k).mode = .safe))
  | _, _ => 0

/-- Axis `k` returns to the mode saved for it in the level-2 link record. -/
def State.returnAxis (s : State) (k : Axis) : State :=
  match s.alc.link2 with
  | some saved => s.returnFromSafe k (saved.get k)
  | none => s

def State.endService2 (s : State) : State := { s with alc := { s.alc with inService2 := false } }
def State.endService1 (s : State) : State := { s with alc := { s.alc with inService1 := false } }

/-- RESOLVE(2), its steps in order (R152): axes return, the level leaves service, arbitration runs, and the hold goes when no
level-2 alert is in service; then the head is taken up. -/
def State.resolve2 (s : State) : State :=
  let s := ((axesOf (returningAxes s)).foldl State.returnAxis s).refreshTruths
  let s := (s.endService2).settle []
  if s.alc.inService2 then s else (s.setHoldAlert false).settle []

/-- An affected axis whose DAMP is set takes the saved value (R153 step 1). -/
def resolvedDamp (s : State) (k : Axis) (damp : Bool) : Bool :=
  match s.alc.cause1, s.alc.link1 with
  | some c, some saved => if hasAxis c.mask k && damp then saved.get k else damp
  | _, _ => damp

/-- The axes whose DAMP a level-1 resolve clears. -/
def clearedDamp (s : State) : AxisSet := axisSetOf (fun k => (s.axis k).damp && !resolvedDamp s k (s.axis k).damp)

/-- Step 1 of R153 for every axis. -/
def State.restoreDamp (s : State) : State :=
  { s with axes := s.axes.mapAxis (fun k a => { a with damp := resolvedDamp s k a.damp }) }

/-- RESOLVE(1), its steps in order (R153). -/
def State.resolve1 (s : State) : State := (s.restoreDamp.endService1).settle []

/-! ### Configuration and cancel (R142, R143, R156) -/

/-- What ALERT_CFG and STORE_LOAD write for one source. -/
structure SourceConfig where
  source : Source
  level : Level
  enable : Bool
  latched : Bool
deriving DecidableEq, Repr

/-- One record written; an event source stays LATCHED (R142). -/
def writeConfig (x : Sources SourceState) (c : SourceConfig) : Sources SourceState :=
  x.set c.source { x.get c.source with level := c.level, enable := c.enable, latched := c.latched || isEvent c.source }

/-- A source whose kind has gone from LATCHED to CONDITION is pending exactly while its truth is true (R143). -/
def rekeyed (old : Sources SourceState) (src : Source) (x : SourceState) : SourceState :=
  if (old.get src).latched && !x.latched then { x with pending := x.truth } else x

/-- The configuration records written in list order, with the changes of the pending states (R142). Arbitration is left to
`settle`. -/
def State.configure (s : State) (cs : List SourceConfig) : State :=
  let x := cs.foldl writeConfig s.alc.sources
  { s with alc := { s.alc with sources := x.mapSource (rekeyed s.alc.sources) } }

/-- The sources of a 26-bit mask that are events or LATCHED cease to be pending (R156). -/
def State.cancel (s : State) (mask : Word) : State :=
  { s with
    alc :=
      { s.alc with
        sources := s.alc.sources.mapSource
          (fun src x => if mask.getLsbD (sourceNumber src) && x.latched then { x with pending := false } else x) } }

end Sys2Proof.Machine
end

