-- ==== Sys2Proof/Machine/HoldLaw.lean ====
section
/-! DEFINITION. The hold law (chapter 3): one computation of one axis, with the kill settling (R132 to R135), the swap (R36), the
joint unwrap (R11, R12), the mark test (R102), the segment evaluation (R85) and the drive word it hands (R122 to R124). -/

namespace Sys2Proof.Machine

/-! ### Kill settling (R132, R133, R135) -/

/-- The resume from PAUSE: the entry captures with the mode kept (R135). -/
def resumeCapture (a : AxisRec) : AxisRec :=
  let a := entryCapture a
  if a.mode = .follow then followCapture a else a

/-- R132 step 1: an axis in AWAITING acts. -/
def State.settleAwaiting (s : State) (k : Axis) : State :=
  if (s.axis k).killPhase = .awaiting then s.killAct k else s

/-- R132 step 2: with the level RELEASED the phase becomes CLEAR, and a PAUSED axis in HOLD, RATE or FOLLOW resumes. -/
def clearKill (a : AxisRec) : AxisRec :=
  let b := if a.killPhase = .paused ∧ isHoldable a.mode = true then resumeCapture a else a
  { b with killPhase := .clear }

def State.settleKill (s : State) (k : Axis) : State :=
  let s := s.settleAwaiting k
  if s.killAsserted || decide ((s.axis k).killPhase = .clear) then s else s.setAxis k (clearKill (s.axis k))

/-- The axis is held by the PAUSE effect at this computation (R133). -/
def heldByPause (s : State) (k : Axis) : Bool :=
  s.killAsserted && decide ((s.axis k).killPhase = .paused) && isHoldable (s.axis k).mode

/-! ### The pending launch (R31, R133) -/

/-- A pending launch leaves the axis without being installed, and counts as aborted. -/
def State.discardLaunch (s : State) (k : Axis) : State :=
  match (s.axis k).launch with
  | none => s
  | some g => (s.setAxis k { s.axis k with launch := none }).reportSegment k g.serial true

/-- A pending launch is installed: into MOVE from HOLD, RATE or FOLLOW (ending a sweep on an axis leaving HOLD), over the
segment held in MOVE, or discarded (R31). -/
def State.installLaunch (s : State) (k : Axis) : State :=
  match (s.axis k).launch with
  | none => s
  | some g =>
    match (s.axis k).mode with
    | .move =>
      let old := (s.axis k).segment
      let s := s.setAxis k { s.axis k with segment := some g, launch := none }
      match old with
      | some o => s.reportSegment k o.serial true
      | none => s
    | .hold =>
      let s := s.leaveHold k
      s.setAxis k { passBetweenActive (s.axis k) .move with segment := some g, launch := none }
    | .rate => s.setAxis k { passBetweenActive (s.axis k) .move with segment := some g, launch := none }
    | .follow => s.setAxis k { passBetweenActive (s.axis k) .move with segment := some g, launch := none }
    | .off => s.discardLaunch k
    | .stopped => s.discardLaunch k
    | .safe => s.discardLaunch k

/-! ### The swap (R36) -/

/-- The staged record becomes active, with the clamps of R36. -/
def swapped (a : AxisRec) : AxisRec :=
  { a with
    active := a.staged
    swapPending := false
    i := BitVec.ofInt 32 (clampSym a.i.toInt a.staged.imax)
    uPrev := half16 (clampSym a.uPrev.toInt a.staged.umax)
    rdEff := half16 (clampSym a.rdEff.toInt a.staged.rmax)
    rdTarget := half16 (clampSym a.rdTarget.toInt a.staged.rmax) }

/-- The swap check of a computation (R36). -/
def State.swapCheck (s : State) (k : Axis) : State :=
  let a := s.axis k
  if a.swapPending && decide (a.mode ≠ .move) && !sweeping s k then s.setAxis k (swapped a) else s

/-! ### Estimation (R10 to R12, R44 to R50) -/

/-- J after unwrapping position `p` from `last` by the shorter delta, saturating (R11). -/
def unwrapped (j : Word) (last p : BitVec 20) : Word :=
  let delta := ((p.toNat : Int) - last.toNat + 524288) % 1048576 - 524288
  sat32 (j.toInt + 16 * delta)

/-- J seeded from a first position (R12). -/
def seeded (p : BitVec 20) : Word :=
  if p.toNat < 524288 then BitVec.ofInt 32 (16 * p.toNat) else BitVec.ofInt 32 (16 * (p.toNat : Int) - 16777216)

/-- The joint step: a new position is read, its flag cleared, and J unwrapped or seeded (R10, R11, R12). -/
def State.jointStep (s : State) (k : Axis) : State :=
  let e := s.si.enc.get k
  if e.newPos then
    let a := s.axis k
    let j := match a.lastEncoder with
      | some last => unwrapped a.j last e.position
      | none => seeded e.position
    (s.setEnc k { e with newPos := false }).setAxis k { a with j := j, lastEncoder := some e.position }
  else s

/-- The gyro term g (R44). -/
def gyroTerm (s : State) (k : Axis) : Int :=
  let p := s.si.sen.get (feedbackUnit k)
  if p.fresh then clampSym (feedbackRate k p.slot - (s.axis k).active.gyroBias) 32767 else 0

/-- W after the integration of R45, with N the divisor under which the axis is due. -/
def integrated (s : State) (k : Axis) (n : Nat) : Word :=
  if (s.si.sen.get (feedbackUnit k)).fresh then wrapAdd (s.axis k).w (n * gyroTerm s k) else (s.axis k).w

/-- The levelling step's change of W (R47). -/
def levelStep (gref w : Word) (shift cap : Nat) : Int := clampSym ((wrapDiff gref w).tdiv (2 ^ shift)) cap

/-- A level axis's gravity work after the integration (R46, R47, R48); `w` is the integrated W. -/
def leveled (s : State) (k : Axis) (w : Word) : AxisRec :=
  let a := s.axis k
  let gref := gravityRef k (s.si.sen.get (feedbackUnit k)).slot
  if gravityValid s (feedbackUnit k) then
    if a.mode = .off ∨ a.mode = .stopped then { a with w := gref }
    else { a with w := wrapAdd w (levelStep gref w a.active.levelShift a.active.levelCap), coastCount := 0 }
  else if isActive a.mode then { a with w := w, coastCount := satInc a.coastCount }
  else { a with w := w }

/-- The joint sum of a heading axis (R50). -/
def jointSum (s : State) (k : Axis) : Int :=
  match k with
  | .pan => (s.axis .swing).j.toInt + (s.axis .pan).j.toInt
  | _ => (s.axis .swing).j.toInt

/-- A heading axis's follow reference and its W in OFF and STOPPED (R49, R50); `w` is the integrated W. -/
def headed (s : State) (k : Axis) (w : Word) : AxisRec :=
  let a := s.axis k
  let f := wrapAdd a.f ((wrapDiff s.le.heading a.f).tdiv (2 ^ a.active.followShift))
  { a with f := f, w := if a.mode = .off ∨ a.mode = .stopped then wrapAdd s.le.heading (jointSum s k) else w }

/-- Estimation (3.2): the joint step first, then W, and F on heading axes. -/
def State.estimate (s : State) (k : Axis) (n : Nat) : State :=
  let s := s.jointStep k
  let w := integrated s k n
  s.setAxis k (if isHeading k then headed s k w else leveled s k w)

/-! ### The mark test (R102, R103) -/

/-- A crossing of markAngle in an enabled direction. -/
def markCrossed (r : Tuning) (jPrev jNew : Word) : Bool :=
  (r.markUp && decide (jPrev.toInt < r.markAngle) && decide (r.markAngle ≤ jNew.toInt)) ||
  (r.markDown && decide (r.markAngle ≤ jPrev.toInt) && decide (jNew.toInt < r.markAngle))

/-! ### The target step (R51 to R54, R85) -/

/-- The weight of a segment at step `k` (R85 steps 2 and 3). -/
def segmentWeight (shape : Shape) (k dn : Nat) : Nat :=
  let p := k * 65536 / dn
  match shape with
  | .linear => p
  | .eased => (3 * p ^ 2 * 65536 - 2 * p ^ 3) / 2 ^ 32

/-- The setpoint offset of a segment at its present k (R85 step 4). -/
def segmentOffset (g : Segment) : Int :=
  g.s0.toInt + ((g.s1.toInt - g.s0.toInt) * segmentWeight g.shape g.k g.dn).tdiv 65536

/-- The segment advanced by one computation (R85 step 1). -/
def advanced (g : Segment) (n : Nat) : Segment := { g with k := min (g.k + n) g.dn }

/-- The axis leaves MOVE at its segment's end (R31). -/
def segmentEnded (k : Axis) (a : AxisRec) (g : Segment) : AxisRec :=
  if g.endMode = .follow ∧ isHeading k = true then { a with mode := .follow, o := g.s1, segment := none }
  else { a with mode := .hold, segment := none }

/-- The MOVE rule (R54): T from the segment; at its end the axis leaves MOVE. The serial of a segment that ends is given. -/
def moveStep (k : Axis) (a : AxisRec) (n : Nat) : AxisRec × Option Half :=
  match a.segment with
  | none => (a, none)
  | some g =>
    let g := advanced g n
    let t := wrapAdd (if isHeading k then a.f else 0) (segmentOffset g)
    if g.k = g.dn then (segmentEnded k { a with t := t } g, some g.serial)
    else ({ a with t := t, segment := some g }, none)

/-- rdEff moved toward rdTarget by at most Amax (R52). -/
def rampedRate (a : AxisRec) : Int :=
  a.rdEff.toInt + clampSym (a.rdTarget.toInt - a.rdEff.toInt) a.active.amax

/-- The mode's rule of the target step (R51 to R54). -/
def targetRule (k : Axis) (a : AxisRec) (n : Nat) : AxisRec × Option Half :=
  match a.mode with
  | .rate => ({ a with rdEff := half16 (rampedRate a), t := wrapAdd a.t (n * rampedRate a) }, none)
  | .follow => ({ a with t := a.f + a.o }, none)
  | .move => moveStep k a n
  | _ => (a, none)

/-- rd of R51 from T before and after the mode's rule. -/
def targetRate (t0 t : Word) (n : Nat) : Int := clampSym ((wrapDiff t t0).tdiv n) 32767

/-! ### The output chain (R55 to R62) -/

/-- The angle error (R55). -/
def angleError (t w : Word) : Int := clampSym (wrapDiff t w) 4194304

/-- The integrator after its update (R56). -/
def updatedIntegrator (a : AxisRec) (e : Int) : Word :=
  if (0 < e ∧ (a.satFlag = .high ∨ a.pinState = .high)) ∨ (e < 0 ∧ (a.satFlag = .low ∨ a.pinState = .low)) then a.i
  else BitVec.ofInt 32 (clampSym (a.i.toInt + e) a.active.imax)

/-- The feedforward: ffSign times the base component of ring entry D (R57). -/
def feedforward (ring : List Triple) (k : Axis) (r : Tuning) : Int :=
  r.ffSign * baseComponent k (ring.getD r.d ⟨0, 0, 0⟩)

/-- The sum of the four terms (R58). -/
def rawSum (r : Tuning) (e i er f : Int) : Int := r.kp * e + r.ki * i + 256 * r.kr * er + 256 * r.kf * f

/-- Division by 2^20, rounded to nearest, halves upward (R58, R63). -/
def roundDemand (raw : Int) : Int := (raw + 524288) / 1048576

/-- UmaxEff (R59). -/
def umaxEff (a : AxisRec) : Int := if a.damp then a.active.udamp else a.active.umax

/-- A demand judged against a limit (R59). -/
def judged (u limit : Int) : LimitFlag := if limit < u then .high else if u < -limit then .low else .none

/-- The slew limit and the second output clamp (R60). -/
def slewed (u2 uPrev l limit : Int) : Int := clampSym (clampInt u2 (uPrev - l) (uPrev + l)) limit

/-- The pin state of a demand at a joint angle (R61). -/
def pinOf (r : Tuning) (j : Word) (u : Int) : LimitFlag :=
  if r.jmax ≤ j.toInt ∧ 0 < u then .high else if j.toInt ≤ r.jmin ∧ u < 0 then .low else .none

/-- A count of computations in trouble: incremented, or back to 0 (R59, R61). -/
def troubleCount (c : Half) (flag : LimitFlag) : Half := if flag = .none then 0 else satInc c

/-- The pin step: demand `u`, pinState and pinCount written, the demand sent kept in uPrev (R61, R62, R63). -/
def pinned (a : AxisRec) (u : Int) : AxisRec :=
  let pin := pinOf a.active a.j u
  { a with
    pinState := pin, pinCount := troubleCount a.pinCount pin, uPrev := half16 (if pin = .none then u else 0) }

/-- u1, the unrounded demand's rounding, from the axis after its target step (R55 to R58). -/
def chainDemand (ring : List Triple) (k : Axis) (a : AxisRec) (g rd : Int) : Int :=
  let e := angleError a.t a.w
  roundDemand (rawSum a.active e (updatedIntegrator a e).toInt (rd - g) (feedforward ring k a.active))

/-- The output chain; the demand it forms is the uPrev it leaves (R55 to R62). -/
def outputChain (ring : List Triple) (k : Axis) (a : AxisRec) (g rd : Int) : AxisRec :=
  let u1 := chainDemand ring k a g rd
  let limit := umaxEff a
  let flag := judged u1 limit
  let u3 := slewed (clampSym u1 limit) a.uPrev.toInt a.active.l limit
  pinned { a with i := updatedIntegrator a (angleError a.t a.w), satFlag := flag, satCount := troubleCount a.satCount flag } u3

/-! ### The SAFE computation (R63, R64) -/

/-- The SAFE demand before the pin step (R63). -/
def safeDemand (a : AxisRec) : Int :=
  clampSym (roundDemand (a.active.ks * clampSym (a.jlock.toInt - a.j.toInt) 4194304)) a.active.usafe

/-- The SAFE computation with a fresh encoder: DRIVE toward Jlock (R63). -/
def safeDriven (a : AxisRec) : AxisRec := { pinned a (safeDemand a) with satFlag := .none, satCount := 0 }

/-- The SAFE computation with a stale encoder: BRAKE (R64). -/
def safeBraked (a : AxisRec) : AxisRec :=
  { a with uPrev := 0, pinState := .none, pinCount := 0, satFlag := .none, satCount := 0 }

/-! ### The mode's work and the command (R20, R43 step 5, R122) -/

/-- What step 5 leaves: the axis, the command (with the demand for DRIVE), and the serial of a segment that ended. -/
structure ModeWork where
  axis : AxisRec
  command : DriveCommand
  ended : Option Half
deriving DecidableEq, Repr

/-- The target step and the output chain of an active axis. -/
def activeWork (ring : List Triple) (k : Axis) (a : AxisRec) (g : Int) (n : Nat) : ModeWork :=
  let p := targetRule k a n
  ⟨outputChain ring k p.1 g (targetRate a.t p.1.t n), .drive, p.2⟩

/-- Step 5 of a computation on the axis as estimation left it (R20, R43, R133). -/
def modeWork (s : State) (k : Axis) (g : Int) (n : Nat) (held : Bool) : ModeWork :=
  let a := s.axis k
  if held then ⟨{ a with t := a.w }, .brake, none⟩
  else
    match a.mode with
    | .off => ⟨a, .freewheel, none⟩
    | .stopped => ⟨a, .brake, none⟩
    | .safe => if (s.si.enc.get k).fresh then ⟨safeDriven a, .drive, none⟩ else ⟨safeBraked a, .brake, none⟩
    | .hold => activeWork s.le.ring k a g n
    | .rate => activeWork s.le.ring k a g n
    | .follow => activeWork s.le.ring k a g n
    | .move => activeWork s.le.ring k a g n

/-! ### The drive word of a computation (R122, R123, R124) -/

/-- R124: an outstanding request found at a computation is a miss. True when the miss reaches the limit. -/
def DriveLink.checkMiss (l : DriveLink) (limit : Nat) : DriveLink × Bool :=
  if l.outstanding then
    if limit ≤ l.missCount + 1 then ({ l with outstanding := false, missCount := 0 }, true)
    else ({ l with outstanding := false, missCount := l.missCount + 1 }, false)
  else (l, false)

/-- R123: the request counter advances and decides the word's report request. -/
def DriveLink.countRequest (l : DriveLink) (every : Nat) : DriveLink × Bool :=
  if every = 0 then ({ l with requestCount := 0 }, false)
  else if every ≤ l.requestCount + 1 then ({ l with requestCount := 0 }, true)
  else ({ l with requestCount := l.requestCount + 1 }, false)

/-- The word of a command: DRIVE is sent as BRAKE while PARKED or UNPARKING; only a DRIVE word carries the demand (R121, R122). -/
def wordFor (park : ParkState) (c : DriveCommand) (demand : Int) (request : Bool) : DriveWord :=
  match c with
  | .drive => if park = .running then ⟨.drive, request, demandCode demand⟩ else brakeWord request
  | .brake => brakeWord request
  | .freewheel => ⟨.freewheel, request, 2048⟩

/-- The last step of a computation: miss check, request count, the word handed. True when DRIVE_FAULT is raised with MISSED. -/
def State.handCommand (s : State) (k : Axis) (c : DriveCommand) : State × Bool :=
  let p := (s.dl.get k).checkMiss s.cl.setup.driverMissLimit
  let q := p.1.countRequest (s.axis k).active.reportEvery
  (s.setLink k (q.1.hand (wordFor s.le.park c (s.axis k).uPrev.toInt q.2)), p.2)

/-! ### One computation (R43) -/

/-- What a computation passes to the other blocks: the conditions that rose at its swap, a miss raised, a mark crossed, a segment
ended. -/
structure Passed where
  rose : List Source
  missed : Bool
  marked : Bool
  ended : Option Half
deriving DecidableEq, Repr

/-- The computation's own work on its axis, its encoder's flag, its link and the sweep, in the order of R43; nothing outside the
axis reacts yet. `n` is the divisor under which the axis is due (R37). The conditions are judged after the swap, with the counts as
they stand (R66); what step 5 leaves is judged by `handOver`. -/
def State.computeAxis (s : State) (k : Axis) (n : Nat) : State × Passed :=
  let s := s.settleKill k
  let held := heldByPause s k
  let s := if held then s.discardLaunch k else s.installLaunch k
  let q := (s.swapCheck k).judge
  let s := q.1
  let before := s.axis k
  let s := s.estimate k n
  let marked := before.lastEncoder.isSome && markCrossed before.active before.j (s.axis k).j
  let g := gyroTerm s k
  let counted := sweeping s k && decide (before.mode = .hold) && (s.si.sen.get (feedbackUnit k)).fresh && !held
  let m := modeWork s k g n held
  let s := s.setAxis k { m.axis with lastMark := if marked then some s.le.frameNo else m.axis.lastMark }
  let p := s.handCommand k m.command
  let s := if counted then p.1.countSweep g else p.1
  (s, ⟨q.2, p.2, marked, m.ended⟩)

/-- What a computation passes on is handed over: the mark to its cues, then misses and conditions to the Alert Controller, then the
completion, recorded against the head before its cues are set (R79, R98, R102, R124; order: notes/assumptions/15.md). -/
def State.handOver (s : State) (k : Axis) (p : Passed) : State :=
  let s := if p.marked then s.feedCue (.mark k) else s
  let s := s.settle (p.rose.map Due.condition ++ if p.missed then [.raised (.driveFault k) 2] else [])
  match p.ended with
  | none => s
  | some serial => (((s.reportSegment k serial false).settle []).feedCue (.segmentDone k)).settle []

/-- One computation of axis `k`, with everything it brings about. -/
def State.compute (s : State) (k : Axis) (n : Nat) : State :=
  let p := s.computeAxis k n
  p.1.handOver k p.2

end Sys2Proof.Machine
end

