-- ==== Sys2Proof/Machine/Records.lean ====
section
/-! DEFINITION. The records that replies, reports and notices carry, byte for byte (09, section 9.9). Multi-byte fields most
significant byte first. A bit of a record to which 9.9 gives no meaning is sent as 0, here and in the words of an image (DESIGN CHOICE:
notes/assumptions/34.md). -/

namespace Sys2Proof.Machine

/-- A 32-bit field holding a signed value. -/
def intBytes (x : Int) : List Byte := wordBytes (BitVec.ofInt 32 x)

/-- A 16-bit field holding a count. -/
def natHalfBytes (n : Nat) : List Byte := halfBytes (halfOfNat n)

/-- A 32-bit field holding a count. -/
def natWordBytes (n : Nat) : List Byte := wordBytes (wordOfNat n)

/-! ### Status codes (9.3) -/

inductive Status where
  | ok | accepted | okParity | unknownKind | badLength | range | state | busy | full | locked | protect | notArmed | notEmpty
  | parked | parity
deriving DecidableEq, Repr

def Status.code : Status → Byte
  | .ok => 0x00
  | .accepted => 0x01
  | .okParity => 0x02
  | .unknownKind => 0x10
  | .badLength => 0x11
  | .range => 0x12
  | .state => 0x13
  | .busy => 0x14
  | .full => 0x15
  | .locked => 0x16
  | .protect => 0x17
  | .notArmed => 0x18
  | .notEmpty => 0x19
  | .parked => 0x1A
  | .parity => 0x1B

/-- OK, ACCEPTED, OK_PARITY and PARITY carry items after the status (R166). -/
def Status.carriesItems : Status → Bool
  | .ok => true
  | .accepted => true
  | .okParity => true
  | .parity => true
  | _ => false

/-! ### Axis state record (84 bytes) -/

def limitCode : LimitFlag → Byte
  | .none => 0
  | .high => 1
  | .low => 2

def shapeBit : Shape → Bool
  | .linear => false
  | .eased => true

def endModeBit : EndMode → Bool
  | .hold => false
  | .follow => true

/-- Offsets 48 to 66: the segment's fields, 0 when it is absent. Bits 2..7 of offset 66 have no meaning in 9.9 and are sent as 0 (DESIGN
CHOICE: notes/assumptions/34.md). -/
def segmentBytes : Option Segment → List Byte
  | none => List.replicate 19 0
  | some g =>
    halfBytes g.serial ++ wordBytes g.s0 ++ wordBytes g.s1 ++ natWordBytes g.dn ++ natWordBytes g.k ++
    [flagBit 0 (shapeBit g.shape) ||| flagBit 1 (endModeBit g.endMode)]

/-- Offsets 72 to 79: the last good report, 0 when it is absent. -/
def reportBytes : Option DriverReport → List Byte
  | none => List.replicate 8 0
  | some r => halfBytes r.current ++ [r.temperature, r.status] ++ wordBytes r.frame

/-- Bytes 2 and 3 of the axis state record. Bit 7 of byte 3 has no meaning in 9.9 and is sent as 0 (DESIGN CHOICE:
notes/assumptions/34.md). -/
def axisFlagBytes (s : State) (k : Axis) : List Byte :=
  let a := s.axis k
  let l := s.dl.get k
  [flagBit 0 a.damp ||| flagBit 1 (a.killPhase ≠ .clear) ||| flagBit 2 a.swapPending ||| flagBit 3 (sweeping s k) |||
     flagBit 4 a.lastEncoder.isSome ||| flagBit 5 a.segment.isSome ||| flagBit 6 a.launch.isSome ||| flagBit 7 a.lastMark.isSome,
   limitCode a.satFlag ||| (limitCode a.pinState <<< 2) ||| flagBit 4 l.lastWord.isSome ||| flagBit 5 l.lastReport.isSome |||
     flagBit 6 l.outstanding]

/-- The axis state record of axis `k` (R39, R127). -/
def axisRecord (s : State) (k : Axis) : List Byte :=
  let a := s.axis k
  let l := s.dl.get k
  [byteOf (axisIndex k), modeCode a.mode] ++ axisFlagBytes s k ++
  (wordBytes a.t ++ wordBytes a.w ++ wordBytes a.j ++ wordBytes a.f ++ wordBytes a.o ++ wordBytes a.jlock) ++
  natWordBytes ((a.lastEncoder.map BitVec.toNat).getD 0) ++ wordBytes a.i ++ halfBytes a.uPrev ++
  (halfBytes a.satCount ++ halfBytes a.pinCount ++ halfBytes a.coastCount) ++ (halfBytes a.rdTarget ++ halfBytes a.rdEff) ++
  segmentBytes a.segment ++ halfBytes ((a.launch.map Segment.serial).getD 0) ++
  ((l.lastWord.map DriveWord.head).getD [0, 0]) ++ [byteOf l.missCount] ++ reportBytes l.lastReport ++
  wordBytes (a.lastMark.getD 0)

/-! ### Queue state (R90) -/

def phaseCode : HeadPhase → Byte
  | .none => 0
  | .pending => 1
  | .dwelling _ => 2
  | .waitingCue _ => 3
  | .waitingSegments _ _ => 4

/-- Remaining frames or timeout; all ones for a timeout that is absent; 0 in other phases. -/
def phaseRemaining : HeadPhase → Word
  | .dwelling n => wordOfNat n
  | .waitingCue (some n) => wordOfNat n
  | .waitingCue .none => 0xFFFFFFFF
  | _ => 0

/-- Outstanding set in bits 0..4, aborted flag in bit 7. -/
def phaseOutstanding : HeadPhase → Byte
  | .waitingSegments out aborted => axisSetByte out ||| flagBit 7 aborted
  | _ => 0

/-- The wait flag of a GOTO or SHIFT. -/
def EntryBody.waits : EntryBody → Bool
  | .goto _ _ _ _ _ w => w
  | .shift _ _ _ _ w => w
  | _ => false

def entrySummary (e : Entry) : List Byte :=
  halfBytes e.serial ++ [e.tag, entryKindCode e.body.kind ||| flagBit 7 e.body.waits]

def outcomeCode : EntryOutcome → Byte
  | .done => 0
  | .skipped => 1
  | .aborted => 2
  | .timeout => 3

def doneBytes (r : DoneRecord) : List Byte :=
  halfBytes r.serial ++ [r.tag, entryKindCode r.kind, outcomeCode r.outcome] ++ wordBytes r.frame

/-- The queue state (R90). -/
def queueRecord (s : State) : List Byte :=
  [flagBit 0 s.ms.running, flagBit 0 s.ms.holdKill ||| flagBit 1 s.ms.holdAlert, flagBit 0 (progress s), phaseCode s.ms.phase] ++
  wordBytes (phaseRemaining s.ms.phase) ++ [phaseOutstanding s.ms.phase, byteOf s.ms.queue.length] ++
  halfBytes s.ms.nextSerial ++ s.ms.queue.flatMap entrySummary ++ [byteOf s.ms.doneList.length] ++ s.ms.doneList.flatMap doneBytes

/-! ### SENSOR report (R15) -/

def senBytes (s : State) (u : SenUnit) : List Byte :=
  let p := s.si.sen.get u
  [flagBit 0 p.fresh ||| flagBit 1 (gravityValid s u) ||| flagBit 2 p.seqRef.isSome, p.seqRef.getD 0] ++
  halfBytes p.slot.yaw ++ halfBytes p.slot.pitch ++ halfBytes p.slot.roll ++ wordBytes p.slot.levelPitch ++
  wordBytes p.slot.levelRoll ++ halfBytes p.slot.accel ++ [p.slot.status] ++ halfBytes p.accepted ++ halfBytes p.rejected ++
  halfBytes p.missed ++ halfBytes p.duplicate

def encBytes (s : State) (k : Axis) : List Byte :=
  let p := s.si.enc.get k
  [flagBit 0 p.fresh ||| flagBit 1 p.newPos] ++ natWordBytes p.position.toNat ++ halfBytes p.accepted ++ halfBytes p.rejected

/-- The SENSOR report after its frame number. -/
def sensorRecord (s : State) : List Byte :=
  [SenUnit.base, .tip, .head].flatMap (senBytes s) ++ allAxes.flatMap (encBytes s)

/-! ### Items of replies -/

/-- TUNE_READ: the 30 fields of a copy, then swapPending (R34). -/
def tuneRecord (r : Tuning) (swapPending : Bool) : List Byte :=
  (List.range 30).flatMap (fun n => intBytes (r.field n)) ++ [flagBit 0 swapPending]

/-- The setup record, the cue source table included (R173). -/
def setupRecord (s : State) : List Byte :=
  let x := s.cl.setup
  natHalfBytes x.silenceLimit ++ [byteOf x.staleLimit.base, byteOf x.staleLimit.tip, byteOf x.staleLimit.head] ++
  natHalfBytes x.gravBand ++ [byteOf x.driverMissLimit, flagBit 0 x.strictLoad] ++ s.ms.cueSources.flatMap selectorBytes

/-- The presence mask of a waypoint slot. -/
def Waypoint.mask (w : Waypoint) : AxisSet := axisSetOf (fun k => (w.offsets.get k).isSome)

/-- A waypoint record (09, Waypoint record). -/
def Waypoint.bytes (w : Waypoint) : List Byte :=
  axisSetByte w.mask :: (allAxes.flatMap (fun k => ((w.offsets.get k).map wordBytes).getD []) ++ [w.label])

/-- CUE: flags, source table, trigger state (R104). -/
def cueRecord (s : State) : List Byte :=
  [s.ms.cues] ++ s.ms.cueSources.flatMap selectorBytes ++
  [flagBit 0 s.ms.trig0.accepted ||| flagBit 1 s.ms.trig0.holdOff ||| flagBit 2 s.ms.trig1.accepted ||| flagBit 3 s.ms.trig1.holdOff]

/-- SWEEP_READ: state, context, R(Dlo)..R(Dhi), last result record (R118). -/
def sweepRecord (w : Sweep) : List Byte :=
  [flagBit 0 w.running, byteOf (axisIndex w.axis), byteOf w.dlo, byteOf w.dhi] ++ natHalfBytes w.wn ++ wordBytes w.q ++
  [byteOf w.savedD, byteOf w.currentD] ++ natHalfBytes w.count ++ natWordBytes w.sum ++
  ((w.results.take (w.dhi + 1)).drop w.dlo).flatMap wordBytes ++
  [sweepCode w.last.outcome, byteOf (axisIndex w.last.axis), byteOf w.last.d, (w.last.first.map byteOf).getD 0xFF,
   (w.last.last.map byteOf).getD 0xFF] ++ wordBytes w.last.frame

/-- One source's byte in ALERT_READ. -/
def sourceByte (x : SourceState) : Byte :=
  flagBit 0 x.pending ||| flagBit 1 x.enable ||| flagBit 2 (x.level = .two) ||| flagBit 3 x.latched ||| flagBit 4 x.truth

def causeBytes : Option Cause → List Byte
  | none => List.replicate 9 0
  | some c => [byteOf (sourceNumber c.source), levelByte c.level, axisSetByte c.mask] ++ halfBytes c.param ++ wordBytes c.frame

/-- ALERT_READ (R157). -/
def alertRecord (s : State) : List Byte :=
  allSources.map (fun src => sourceByte (s.source src)) ++
  [flagBit 0 s.alc.inService1 ||| flagBit 1 s.alc.inService2 ||| flagBit 2 s.alc.seen1 ||| flagBit 3 s.alc.seen2 |||
     flagBit 4 s.alc.cause1.isSome ||| flagBit 5 s.alc.cause2.isSome] ++
  causeBytes s.alc.cause1 ++ causeBytes s.alc.cause2 ++ [axisSetByte s.alc.testMask] ++ halfBytes (s.source .test).param

/-- The pending states of the 26 sources, bit n for source n (R156). -/
def pendingMask (s : State) : Word :=
  allSources.foldl (fun m src => if (s.source src).pending then m ||| wordOfNat (2 ^ sourceNumber src) else m) 0

def resetCauseCode : ResetCause → Byte
  | .power => 1
  | .pin => 2
  | .restart => 3

def parkCode : ParkState → Byte
  | .running => 0
  | .parked => 1
  | .unparking => 2

/-- IDENT after its status (R175). -/
def identRecord (s : State) : List Byte :=
  let c := s.cl.counters
  [0x41, 0x05, 0x40, 0x01, resetCauseCode s.cl.resetCause, flagBit 0 s.cl.resetSeen ||| flagBit 1 s.le.halted, parkCode s.le.park] ++
  wordBytes s.le.frameNo ++ halfBytes c.admitted ++ halfBytes c.lengthErrors ++ halfBytes c.crcErrors ++ halfBytes c.gaps ++
  halfBytes c.overruns ++ halfBytes c.unaskedDrops

/-- The busy state and the slot of a save or erase in progress. -/
def busyBytes : Busy → List Byte
  | .idle => [0, 0]
  | .saving k _ => [1, byteOf k]
  | .erasing k => [2, byteOf k]
  | .protecting _ _ => [3, 0]

def slotCode : SlotState → Byte
  | .empty => 0
  | .valid => 1
  | .partly => 2

/-- STORE_STATUS (R191). -/
def storeRecord (s : State) : List Byte :=
  let p := s.ps
  busyBytes p.busy ++
  [flagBit 0 p.latch ||| flagBit 1 p.freeze ||| flagBit 2 s.protHigh ||| flagBit 3 p.parityFlag ||| flagBit 4 p.lastBad.isSome] ++
  p.slots.map (fun x => slotCode x.state) ++ [byteOf p.protectCount, byteOf ((p.lastBad.map Prod.fst).getD 0)] ++
  natHalfBytes ((p.lastBad.map Prod.snd).getD 0)

end Sys2Proof.Machine
end

