-- ==== Sys2Proof/Machine/LoopFrame.lean ====
section
/-! DEFINITION. A loop frame (R41): number, base history and heading, the due computations, the head's count and the reports, the
last three in a free order (R41, R50, R91, R39, R90). -/

namespace Sys2Proof.Machine

/-- The triple appended at this frame: BASE's rates when it is fresh, zeros when it is stale (R13). -/
def baseTriple (s : State) : Triple :=
  let p := s.si.sen.base
  if p.fresh then ⟨p.slot.yaw, p.slot.pitch, p.slot.roll⟩ else ⟨0, 0, 0⟩

/-- Steps 1 and 2 of R41: the frame number, the ring (R13) and H (R14). -/
def State.beginFrame (s : State) : State :=
  let t := baseTriple s
  { s with
    le :=
      { s.le with
        frameNo := s.le.frameNo + 1
        ring := (t :: s.le.ring).take 64
        heading := wrapAdd s.le.heading t.yaw.toInt } }

/-- Axis `k` is due at the present frame number under divisor `n` (R42). -/
def dueAt (frame : Word) (n : Nat) : Bool := frame.toNat % n == 0

/-- A part of a loop frame whose place among the others is free. -/
inductive FrameTask where
  | compute (k : Axis) (n : Nat)
  | count
  | report
deriving DecidableEq, Repr

/-- The computations due at the frame that has just begun, each with the divisor it is due under (R37, R42). -/
def dueTasks (s : State) : List FrameTask :=
  (allAxes.filter (fun k => dueAt s.le.frameNo (s.axis k).active.n)).map (fun k => .compute k (s.axis k).active.n)

/-! ### Reports (R178) -/

/-- One step of the making of a frame's reports: the items of an axis (R39) or of a port (R15) are taken, each at an instant of its
own within the frame (notes/assumptions/5.md), or a report is offered. -/
inductive ReportStep where
  | axis (k : Axis)
  | offerAxis
  | unit (u : SenUnit)
  | encoder (k : Axis)
  | offerSensor
  | queue
deriving DecidableEq, Repr

/-- The frame is a report frame of the plan (R178). -/
def reportFrame (s : State) : Bool :=
  decide (s.cl.planInterval ≠ 0) && s.le.frameNo.toNat % s.cl.planInterval == 0

/-- The steps of the frame's reports, in the order AXIS, SENSOR, QUEUE. -/
def reportSteps (s : State) : List ReportStep :=
  if reportFrame s then
    (if s.cl.planSet.getLsbD 0 then allAxes.map .axis ++ [.offerAxis] else []) ++
    (if s.cl.planSet.getLsbD 1 then [.unit .base, .unit .tip, .unit .head] ++ allAxes.map .encoder ++ [.offerSensor] else []) ++
    (if s.cl.planSet.getLsbD 2 then [.queue] else [])
  else []

/-- A report frame: tag 0, the frame number first (R178). -/
def reportOf (s : State) (kind : Byte) (content : List Byte) : Frame := ⟨kind, 0, wordBytes s.le.frameNo ++ content⟩

/-- One step of the reports; `acc` holds the items taken so far for the report being made. -/
def State.reportStep (s : State) (acc : List Byte) : ReportStep → State × List Byte
  | .axis k => (s, acc ++ axisRecord s k)
  | .offerAxis => (s.offerUnasked (reportOf s 0x40 acc), [])
  | .unit u => (s, acc ++ senBytes s u)
  | .encoder k => (s, acc ++ encBytes s k)
  | .offerSensor => (s.offerUnasked (reportOf s 0x41 acc), [])
  | .queue => (s.offerUnasked (reportOf s 0x42 (queueRecord s)), acc)

/-! ### The tasks in a free order (notes/assumptions/5.md) -/

/-- One task of a loop frame; a report task takes the next of the report steps. -/
def State.frameTask (s : State) (steps : List ReportStep) (acc : List Byte) : FrameTask → State × List ReportStep × List Byte
  | .compute k n => (s.compute k n, steps, acc)
  | .count => (s.countFrame.settle [], steps, acc)
  | .report =>
    match steps with
    | [] => (s, [], acc)
    | r :: rest => let p := s.reportStep acc r; (p.1, rest, p.2)

/-- The tasks run in an order that `State.choose` resolves, one at a time; `fuel` bounds their number. -/
def runTasks : Nat → List FrameTask → List ReportStep → List Byte → State → State
  | 0, _, _, _, s => s
  | _ + 1, [], _, _, s => s
  | fuel + 1, t :: ts, steps, acc, s =>
    let p := s.choose (ts.length + 1)
    let task := ((t :: ts)[p.1]?).getD t
    let q := p.2.frameTask steps acc task
    runTasks fuel ((t :: ts).eraseIdx p.1) q.2.1 q.2.2 q.1

/-- One loop frame (R41). -/
def State.takeFrame (s : State) : State :=
  let s := s.beginFrame
  let steps := reportSteps s
  let tasks := dueTasks s ++ [.count] ++ steps.map (fun _ => .report)
  runTasks tasks.length tasks steps [] s

/-- The frame timer measures from zero (R41, R196, R198). -/
def State.restartFrameTimer (s : State) : State := { s with le := { s.le with frameElapsed := 0 } }

/-- The frame timer expires: a loop frame is taken, and the timer measures the next (R41, R193). A stopped timer does not
expire. -/
def State.timerFrame (s : State) : State :=
  if s.le.frameTimer then s.takeFrame.restartFrameTimer else s

end Sys2Proof.Machine
end

