-- ==== Sys2Proof/Machine/SetupUnit.lean ====
section
/-! DEFINITION. The setup record (R173) and the silence timer (R170, R171). -/

namespace Sys2Proof.Machine

/-! ### The silence timer (R170) -/

/-- rdTarget ← 0 on every axis in RATE (R170). -/
def State.zeroRates (s : State) : State :=
  { s with axes := s.axes.mapAxis (fun _ a => if a.mode = .rate then { a with rdTarget := 0 } else a) }

/-- The change to EXPIRED: LINK_SILENT becomes true and the RATE axes' rdTarget is zeroed; the Alert Controller is left to
`settle`. -/
def State.expireSilence (s : State) : State :=
  { s.zeroRates with cl := { s.cl with silence := .expired, silenceElapsed := 0 } }

/-- A good frame restarts the timer from zero (R165, R170). -/
def State.restartSilence (s : State) : State := { s with cl := { s.cl with silence := .running, silenceElapsed := 0 } }

/-- The silence limit in force, in wall-time units. -/
def silenceUnits (s : State) : Nat := s.cl.setup.silenceLimit * Config.unitsPerMs

/-- The silence timer runs and has reached its limit (R170). -/
def silenceDue (s : State) : Bool := decide (s.cl.silence = .running) && decide (silenceUnits s ≤ s.cl.silenceElapsed)

/-- A new silence limit has been written: a running timer that has reached it expires (R171). -/
def State.rejudgeSilence (s : State) : State := if silenceDue s then s.expireSilence else s

/-! ### Writing the record -/

/-- Which timers' limits a write names. -/
structure SetupWritten where
  silence : Bool
  base : Bool
  tip : Bool
  head : Bool
deriving DecidableEq, Repr

/-- The record is written and each written limit takes effect at once through its reader (R6, R171, R173). -/
def State.writeSetup (s : State) (x : Setup) (w : SetupWritten) : State :=
  let s := { s with cl := { s.cl with setup := x } }
  let s := if w.silence then s.rejudgeSilence else s
  let s := if w.base then s.rejudgeStale .base else s
  let s := if w.tip then s.rejudgeStale .tip else s
  if w.head then s.rejudgeStale .head else s

/-- The cue source table written (R97); the flags stay. -/
def State.setCueTable (s : State) (table : List Selector) : State := { s with ms := { s.ms with cueSources := table } }

/-! ### Ranges (R173) -/

/-- A silence limit is never refused: it is clamped to 20..2000 ms. -/
def clampSilence (n : Nat) : Nat := max 20 (min n 2000)

def staleInRange (b : Byte) : Bool := 1 ≤ b.toNat && b.toNat ≤ 64
def gravInRange (h : Half) : Bool := 10 ≤ h.toNat && h.toNat ≤ 500
def missInRange (b : Byte) : Bool := 1 ≤ b.toNat && b.toNat ≤ 15
def strictInRange (b : Byte) : Bool := b.toNat ≤ 1

/-- A test on a field that is made only when the field is present. -/
def whenPresent {α : Type} (p : α → Bool) : Option α → Bool
  | some x => p x
  | none => true

def rawSelectorOk (r : RawSelector) : Bool := (selectorOf r.code r.param).isSome

/-- SETUP's check of the whole request (R173). -/
def setupOk (f : SetupFields) : Bool :=
  whenPresent staleInRange f.staleBase && whenPresent staleInRange f.staleTip && whenPresent staleInRange f.staleHead &&
  whenPresent gravInRange f.gravBand && whenPresent missInRange f.driverMiss && whenPresent strictInRange f.strictLoad &&
  !f.bit7 && f.selectors.all (whenPresent rawSelectorOk)

/-- The value of a byte field, or the one in force. -/
def byteOr (x : Option Byte) (old : Nat) : Nat := (x.map BitVec.toNat).getD old

/-- The setup record after a SETUP's present fields (R173). -/
def setupAfter (x : Setup) (f : SetupFields) : Setup where
  silenceLimit := (f.silence.map (fun h => clampSilence h.toNat)).getD x.silenceLimit
  staleLimit :=
    ⟨byteOr f.staleBase x.staleLimit.base, byteOr f.staleTip x.staleLimit.tip, byteOr f.staleHead x.staleLimit.head⟩
  gravBand := (f.gravBand.map BitVec.toNat).getD x.gravBand
  driverMissLimit := byteOr f.driverMiss x.driverMissLimit
  strictLoad := (f.strictLoad.map (fun b => decide (b ≠ 0))).getD x.strictLoad

/-- The cue source table after a SETUP's present selectors. -/
def tableAfter (table : List Selector) (f : SetupFields) : List Selector :=
  List.zipWith (fun old r => (r.bind (fun q : RawSelector => selectorOf q.code q.param)).getD old) table f.selectors

/-- A SETUP that passes its check: every present field written and in effect (R173). The cue source table is written before the limits
take effect, so that an alert taken for an expiry that this SETUP brings about finds the new table; R97 lets either order occur
(DESIGN CHOICE: notes/assumptions/29.md). -/
def State.applySetup (s : State) (f : SetupFields) : State :=
  ((s.setCueTable (tableAfter s.ms.cueSources f)).writeSetup (setupAfter s.cl.setup f)
    ⟨f.silence.isSome, f.staleBase.isSome, f.staleTip.isSome, f.staleHead.isSome⟩).settle []

end Sys2Proof.Machine
end

