-- ==== Sys2Proof/Machine/ProfileStore.lean ====
section
/-! DEFINITION. The Profile Store (chapter 10): stored words and their parity, the profile image of 1046 words, capture, the checks of
the writing requests, completions, loading. -/

namespace Sys2Proof.Machine

/-! ### Stored words (R182) -/

/-- The number of ones in a byte. -/
def onesOf (b : Byte) : Nat := ((List.range 8).filter (fun i => b.getLsbD i)).length

/-- The parity bit that makes the ones of a byte and its bit odd in number. -/
def parityBit (b : Byte) : Bool := onesOf b % 2 == 0

def highByte (h : Half) : Byte := h.extractLsb' 8 8
def lowByte (h : Half) : Byte := h.extractLsb' 0 8

/-- A word as a save writes it: with correct parity. -/
def goodWord (h : Half) : StoredWord := ⟨h, parityBit (highByte h), parityBit (lowByte h)⟩

/-- A word is bad when either byte's ones with its parity bit are not odd in number. -/
def badWord (w : StoredWord) : Bool :=
  w.parityHigh != parityBit (highByte w.data) || w.parityLow != parityBit (lowByte w.data)

/-! ### Images -/

/-- The number of words of an image. -/
def imageWords : Nat := 1046

/-- A word of an image; an unlisted word is 0 with correct parity. -/
def Image.read (img : Image) (i : Nat) : StoredWord :=
  match img.find? (fun p => p.1 == i) with
  | some p => p.2
  | none => goodWord 0

/-- The canonical form: indices strictly rising, and no listed word equal to what an unlisted one reads as. -/
def Image.wf (img : Image) : Bool :=
  decide (img.Pairwise (fun p q => p.1 < q.1)) && img.all (fun p => p.2 != goodWord 0)

/-- The words `ws` with correct parity, from index `i` on. -/
def imageFrom : Nat → List Half → Image
  | _, [] => []
  | i, h :: hs => if h = 0 then imageFrom (i + 1) hs else (i, goodWord h) :: imageFrom (i + 1) hs

/-- The image holding the words given, in word order. -/
def Image.ofWords (ws : List Half) : Image := imageFrom 0 ws

/-! ### Capture (R182, R185) -/

/-- The two words of a 32-bit value, high word first. -/
def wordHalves (x : Word) : List Half := [x.extractLsb' 16 16, x.extractLsb' 0 16]

def pairHalf (high low : Byte) : Half := high ++ low

/-- The 60 words of a tuning record. -/
def tuningWords (r : Tuning) : List Half := (List.range 30).flatMap (fun n => wordHalves (BitVec.ofInt 32 (r.imageField n)))

/-- The 11 words of a waypoint slot; an absent offset is stored as 0. -/
def waypointWords (w : Waypoint) : List Half :=
  pairHalf (axisSetByte w.mask) w.label :: allAxes.flatMap (fun k => wordHalves ((w.offsets.get k).getD 0))

/-- A source's configuration word: level in bits 15..8, enable in 7..4, kind in 3..0. -/
def configWord (x : SourceState) : Half :=
  pairHalf (levelByte x.level) ((if x.enable then (16 : Byte) else 0) ||| flagBit 0 x.latched)

def selectorWord (c : Selector) : Half :=
  match selectorBytes c with
  | [a, b] => pairHalf a b
  | _ => 0

def setupWords (x : Setup) : List Half :=
  [halfOfNat x.silenceLimit, halfOfNat x.staleLimit.base, halfOfNat x.staleLimit.tip, halfOfNat x.staleLimit.head,
   halfOfNat x.gravBand, halfOfNat x.driverMissLimit, if x.strictLoad then 1 else 0]

/-- The words of the image captured from the state as it stands (R182, R185). -/
def capturedWords (s : State) : List Half :=
  allAxes.flatMap (fun k => tuningWords (s.axis k).active) ++ s.ms.waypoints.flatMap waypointWords ++ [s.ms.locks.setWidth 16] ++
  allSources.map (fun src => configWord (s.source src)) ++ s.ms.cueSources.map selectorWord ++ setupWords s.cl.setup

def capturedImage (s : State) : Image := Image.ofWords (capturedWords s)

/-! ### Slots and the operation in progress (R183 to R188) -/

def State.slot (s : State) (k : Nat) : Slot := s.ps.slots.getD k ⟨.empty, []⟩

def State.setSlot (s : State) (k : Nat) (x : Slot) : State := { s with ps := { s.ps with slots := s.ps.slots.set k x } }

/-- The first failing check of STORE_SAVE and STORE_ERASE (R184). -/
def slotCheck (s : State) (slot : Byte) (save : Bool) : Option Status :=
  if 7 < slot.toNat then some .range
  else if s.ps.busy ≠ .idle then some .busy
  else if s.ps.latch = false then some .notArmed
  else if slot.toNat < s.ps.protectCount then some .protect
  else if save ∧ (s.slot slot.toNat).state ≠ .empty then some .notEmpty
  else none

/-- The first failing check of STORE_PROTECT (R184, R187). -/
def protectCheck (s : State) (count freeze : Byte) : Option Status :=
  if 8 < count.toNat ∨ 1 < freeze.toNat then some .range
  else if s.ps.busy ≠ .idle then some .busy
  else if s.ps.latch = false then some .notArmed
  else if s.ps.freeze = true ∧ s.protHigh = false then some .protect
  else none

/-- An operation begins: the busy state and its timer. -/
def State.beginBusy (s : State) (b : Busy) : State := { s with ps := { s.ps with busy := b, busyElapsed := 0 } }

/-- The slot is marked PARTIAL. -/
def State.markPartial (s : State) (k : Nat) : State := s.setSlot k { s.slot k with state := .partly }

/-- The end of an operation: the latch is cleared and the busy state becomes IDLE (R188). -/
def State.endBusy (s : State) : State := { s with ps := { s.ps with busy := .idle, busyElapsed := 0, latch := false } }

/-- The save in progress completes (R185, R188). -/
def State.completeSave (s : State) : State :=
  match s.ps.busy with
  | .saving k img => ((s.setSlot k ⟨.valid, img⟩).endBusy).noticeDone .save (byteOf k) 0 0
  | _ => s

/-- The erase in progress completes (R186, R188). -/
def State.completeErase (s : State) : State :=
  match s.ps.busy with
  | .erasing k => ((s.setSlot k ⟨.empty, []⟩).endBusy).noticeDone .erase (byteOf k) 0 0
  | _ => s

/-- The protect in progress completes (R187, R188). -/
def State.completeProtect (s : State) : State :=
  match s.ps.busy with
  | .protecting count freeze =>
    ({ s with ps := { s.ps with protectCount := count, freeze := freeze } }.endBusy).noticeDone .protect (byteOf count)
      (flagBit 0 freeze) 0
  | _ => s

/-! ### Applying an image (R190) -/

/-- The 32-bit value in words `i` and `i + 1`. -/
def Image.word (img : Image) (i : Nat) : Word := (img.read i).data ++ (img.read (i + 1)).data

/-- The staged record of the axis of index `a`. -/
def loadedTuning (img : Image) (a : Nat) : Tuning :=
  Tuning.ofLoaded ((List.range 30).map (fun f => (img.word (60 * a + 2 * f)).toInt))

/-- Every axis takes its staged copy and a pending swap. -/
def State.loadTuning (s : State) (img : Image) : State :=
  { s with
    axes := s.axes.mapAxis (fun k a => { a with staged := loadedTuning img (axisIndex k), swapPending := true }) }

/-- Waypoint slot `i` of an image; presence bits above the five axes are ignored. -/
def loadedWaypoint (img : Image) (i : Nat) : Waypoint :=
  let w := (img.read (300 + 11 * i)).data
  let offset (k : Axis) : Option Word :=
    if (highByte w).getLsbD (axisIndex k) then some (img.word (301 + 11 * i + 2 * axisIndex k)) else none
  ⟨lowByte w, ⟨offset .swing, offset .lift, offset .pan, offset .tilt, offset .roll⟩⟩

/-- Each unlocked page takes its slots and then its lock flag; a locked page keeps both. -/
def State.loadWaypoints (s : State) (img : Image) : State :=
  { s with
    ms :=
      { s.ms with
        waypoints := s.ms.waypoints.mapIdx (fun i w => if s.ms.locks.getLsbD (i / 16) then w else loadedWaypoint img i)
        locks := s.ms.locks ||| ((img.read 1004).data.setWidth 4) } }

/-- The configuration of a source from its word. -/
def loadedConfig (img : Image) (src : Source) : SourceConfig :=
  let w := (img.read (1005 + sourceNumber src)).data
  { source := src, level := if (highByte w).toNat ≤ 1 then .one else .two, enable := w.extractLsb' 4 4 != (0 : BitVec 4),
    latched := w.extractLsb' 0 4 != (0 : BitVec 4) }

/-- The cue source table of an image. -/
def loadedTable (img : Image) : List Selector :=
  (List.range 8).map (fun n => let w := (img.read (1031 + n)).data; loadedSelector (highByte w) (lowByte w))

def clampNat (x lo hi : Nat) : Nat := max lo (min x hi)

/-- The setup record of an image. -/
def loadedSetup (img : Image) : Setup :=
  let field (i : Nat) : Nat := (img.read (1039 + i)).data.toNat
  { silenceLimit := clampNat (field 0) 20 2000
    staleLimit := ⟨clampNat (field 1) 1 64, clampNat (field 2) 1 64, clampNat (field 3) 1 64⟩
    gravBand := clampNat (field 4) 10 500
    driverMissLimit := clampNat (field 5) 1 15
    strictLoad := decide (field 6 ≠ 0) }

/-- Each part of an image written to its owner (R190), before the Alert Controller and the queue react; so their reactions find every
part written, the cue source table among them (DESIGN CHOICE: notes/assumptions/29.md). -/
def State.writeImage (s : State) (img : Image) : State :=
  ((((s.loadTuning img).loadWaypoints img).configure (allSources.map (loadedConfig img))).setCueTable (loadedTable img)).writeSetup
    (loadedSetup img) ⟨true, true, true, true⟩

/-- An image applied as one event (R189, R190). -/
def State.applyImage (s : State) (img : Image) : State := (s.writeImage img).settle []

/-! ### Loading (R189) -/

/-- The indices of the bad words of an image, rising. -/
def badIndices (img : Image) : List Nat := (List.range imageWords).filter (fun i => badWord (img.read i))

/-- The parity flag, the last bad location and the raise of STORE_PARITY (R189 steps 1 to 3). -/
def State.reportParity (s : State) (slot last : Nat) : State :=
  ({ s with ps := { s.ps with parityFlag := true, lastBad := some (slot, last) } } : State).settle
    [.raised .storeParity (halfOfNat slot)]

/-- A load that passes its checks, with its status (R189). -/
def State.loadSlot (s : State) (slot : Nat) : State × Status × Nat :=
  let img := (s.slot slot).image
  match badIndices img with
  | [] => (s.applyImage img, .ok, 0)
  | b :: bs =>
    let t := s.reportParity slot ((b :: bs).getLastD b)
    if s.cl.setup.strictLoad then (t, .parity, bs.length + 1) else (t.applyImage img, .okParity, bs.length + 1)

end Sys2Proof.Machine
end

