-- ==== Sys2Proof/Machine/Kill.lean ====
section
/-! DEFINITION. The kill line (R128 to R131), the trigger lines (R100) and the level of PROT_N. -/

namespace Sys2Proof.Machine

/-! ### The kill line -/

/-- R129 step 3 for one axis: an IMMEDIATE axis acts and its link is handed a BRAKE word (R131); a NEXT axis in CLEAR or HALTED
enters AWAITING. -/
def State.killAxis (s : State) (k : Axis) : State :=
  let a := s.axis k
  match a.active.killTiming with
  | .immediate => (s.killAct k).handWord k (brakeWord false)
  | .next =>
    if a.killPhase = .clear ∨ a.killPhase = .halted then s.setAxis k { a with killPhase := .awaiting } else s

def State.killAxes (s : State) : State := allAxes.foldl State.killAxis s

/-- The hold reason KILL, then the cues whose selector is KILL, as one event (R99, R129 step 2). -/
def State.killHold (s : State) : State := (s.setHoldKill true).feedCue .kill

/-- An assertion (R129). The hold stands first (R134, R99; notes/assumptions/6.md); the KILL condition and the axes' actions
need no order between them: a free choice. -/
def State.assertKill (s : State) : State :=
  if s.killAsserted then s
  else
    let p := s.killHold.choose 2
    let s : State := { p.2 with killAsserted := true }
    if p.1 = 0 then ((s.settle []).killAxes).settle [] else s.killAxes.settle []

/-- A release: the condition falls, the hold reason goes, the head is taken up (R130). -/
def State.releaseKill (s : State) : State :=
  if s.killAsserted then (({ s with killAsserted := false } : State).setHoldKill false).settle [] else s

/-! ### The trigger lines (R100) -/

/-- The part takes an edge: the accepted level changes, the hold-off starts, a rising edge sets the line's cues. -/
def State.takeEdge (s : State) (line : TrigLine) (high : Bool) : State :=
  let s := s.setTrig line { s.trig line with accepted := high, holdOff := true, elapsed := 0 }
  if high then (s.feedCue (.trigger line)).settle [] else s

/-- The line's level becomes `high`. -/
def State.changeLine (s : State) (line : TrigLine) (high : Bool) : State :=
  let t := s.trig line
  let s := s.setTrig line { t with line := high }
  if t.line = high ∨ t.holdOff = true ∨ high = t.accepted then s else s.takeEdge line high

/-- A change of level on an input line. PROT_N takes no edge: a request that reads it finds the level that stands when it is served
(R187, R191; DESIGN CHOICE of the row: notes/assumptions/9.md). -/
def State.changeInput (s : State) (line : InputLine) (high : Bool) : State :=
  match line with
  | .trig l => s.changeLine l high
  | .protN => s.setProt high

/-- The hold-off expires: IDLE, and an edge at once when the levels differ. -/
def State.expireHoldOff (s : State) (line : TrigLine) : State :=
  let t := s.trig line
  if t.holdOff then
    let s := s.setTrig line { t with holdOff := false, elapsed := 0 }
    if t.line = t.accepted then s else s.takeEdge line t.line
  else s

end Sys2Proof.Machine
end

