-- ==== Sys2Proof/Machine/Park.lean ====
section
/-! DEFINITION. Park and bench operation (chapter 11): PARK, UNPARK, HALT, RUN, STEP and the end of the settling period. -/

namespace Sys2Proof.Machine

/-- The frame timer started from zero, or stopped, as R193 says for the state. -/
def State.setFrameTimer (s : State) : State :=
  { s with le := { s.le with frameTimer := s.le.timerShouldRun, frameElapsed := 0 } }

/-- PARK's refusals (R194). -/
def parkRefused (s : State) : Bool :=
  decide (s.le.park = .unparking) || allAxes.any (fun k => !decide ((s.axis k).mode = .off ∨ (s.axis k).mode = .stopped)) ||
  s.ms.running || s.sw.running || decide (s.ps.busy ≠ .idle)

/-- PARK takes effect as one event (R194, R16). -/
def State.takePark (s : State) : State :=
  let s := s.brakeAll
  ({ s with si := s.si.close, le := { s.le with park := .parked } } : State).setFrameTimer

/-- UNPARK takes effect as one event (R196, R16). -/
def State.takeUnpark (s : State) : State :=
  (({ s with si := s.si.reopen, le := { s.le with park := .unparking, settleElapsed := 0 } } : State).setFrameTimer).settle []

/-- The settling period ends (R196). -/
def State.endSettling (s : State) : State :=
  if s.le.park = .unparking then
    ({ s with le := { s.le with park := .running, settleElapsed := 0 } } : State).noticeDone .unpark 0 0 0
  else s

/-- HALT (R197). -/
def State.takeHalt (s : State) : State :=
  if s.le.halted then s else (({ s with le := { s.le with halted := true } } : State).setFrameTimer).brakeAll

/-- RUN (R198). -/
def State.takeRun (s : State) : State :=
  if s.le.halted then ({ s with le := { s.le with halted := false } } : State).setFrameTimer else s

end Sys2Proof.Machine
end

