-- ==== Sys2Proof/Machine/Reset.lean ====
section
/-! DEFINITION. The three resets: every block at its values after reset, the reset cause written, the store kept as R192 gives,
and a kill assertion at once when KILL_N is low (R129, R174). -/

namespace Sys2Proof.Machine

/-- The Profile Store after a reset (R192). -/
def Store.afterReset (p : Store) : Store :=
  { p with latch := false, busy := .idle, busyElapsed := 0, parityFlag := false, lastBad := none }

/-- Every block at its values after reset, with the pins at the levels they hold as the reset ends. -/
def State.blocksReset (s : State) (cause : ResetCause) (pins : Pins) : State :=
  { s with
    si := SensorIntake.reset
    axes := axesReset
    le := LoopEngine.reset
    ms := Sequencer.reset pins.trig0 pins.trig1
    sw := Sweep.reset
    dl := Five.all DriveLink.reset
    killAsserted := false
    alc := Alerts.reset
    cl := Console.reset cause
    ps := s.ps.afterReset
    protHigh := pins.protN }

/-- A reset: the kill input starts RELEASED and takes a low line as an assertion at once (R129, R137). -/
def State.resetWith (s : State) (cause : ResetCause) (pins : Pins) : State :=
  let s := s.blocksReset cause pins
  if pins.killN then s else s.assertKill

/-- The levels of the pins in the state. -/
def State.pins (s : State) : Pins := ⟨!s.killAsserted, s.ms.trig0.line, s.ms.trig1.line, s.protHigh⟩

/-- The reset that ends a RESTART: the pins keep their levels (R176). -/
def State.restartReset (s : State) : State := s.resetWith .restart s.pins

end Sys2Proof.Machine
end

