-- ==== Sys2Proof/Machine/Requests.lean ====
section
/-! DEFINITION. Serving: what each request of the catalogue does and answers, under its own rule (R166 step 4). A request answers the
state, its status and the items after the status. -/

namespace Sys2Proof.Machine

/-- The outcome of serving: the state the effects leave, the status, the items named by the request's rule. -/
structure Served where
  state : State
  status : Status
  items : List Byte
deriving DecidableEq, Repr

/-- A refusal leaves the state unchanged and carries no items. -/
def refused (s : State) (x : Status) : Served := ⟨s, x, []⟩

/-- A request done, with no items. -/
def done (s : State) : Served := ⟨s, .ok, []⟩

/-! ### The Console Link's own requests (chapter 9) -/

/-- IDENT (R175). -/
def serveIdent (s : State) (option : Byte) : Served :=
  ⟨if option.getLsbD 0 then { s with cl := { s.cl with resetSeen := false } } else s, .ok, identRecord s⟩

/-- RESTART's own check (R176); the dispatcher does the rest. -/
def serveRestart (s : State) : Served := if s.cl.requests.isEmpty then done s else refused s .busy

/-- SETUP (R173). -/
def serveSetup (s : State) (f : SetupFields) : Served :=
  if setupOk f then ⟨s.applySetup f, .ok, setupRecord (s.applySetup f)⟩ else refused s .range

/-- The rate axis `k` takes: clamped to its active Rmax, on an axis in RATE (R172). -/
def demandedRate (a : AxisRec) (rate : Option Half) : Option Half :=
  match rate with
  | some r => if a.mode = .rate then some (half16 (clampSym r.toInt a.active.rmax)) else none
  | none => none

/-- DEMAND's effect on one axis (R172). -/
def demandAxis (rates : Five (Option Half)) (k : Axis) (a : AxisRec) : AxisRec :=
  match demandedRate a (rates.get k) with
  | some r => { a with rdTarget := r }
  | none => a

/-- DEMAND (R172). -/
def serveDemand (s : State) (mask : Byte) (rates : List Half) : Served :=
  if maskInFive mask then
    let x := spreadOffsets mask rates
    ⟨{ s with axes := s.axes.mapAxis (demandAxis x) }, .ok,
     [axisSetByte (axisSetOf (fun k => (demandedRate (s.axis k) (x.get k)).isSome))]⟩
  else refused s .range

/-- The interval as kept: 0, or brought into 8..2048 (R177). -/
def keptInterval (n : Nat) : Nat := if n = 0 then 0 else max 8 (min n 2048)

/-- REPORT_PLAN (R177). -/
def serveReportPlan (s : State) (set : Byte) (interval : Half) : Served :=
  if set.toNat < 8 then
    ⟨{ s with cl := { s.cl with planSet := set.setWidth 3, planInterval := keptInterval interval.toNat } }, .ok,
     set :: natHalfBytes (keptInterval interval.toNat)⟩
  else refused s .range

/-! ### Axes (chapter 2) -/

/-- STATE (R39). -/
def serveState (s : State) (mask : Byte) : Served :=
  if maskNamesAxes mask then ⟨s, .ok, (axesOf (axisSet mask)).flatMap (axisRecord s)⟩ else refused s .range

/-- The axes of the level kind: LIFT, TILT, ROLL. -/
def levelAxes : Byte := 0x1A

/-- MODE's target and DAMP action when its fields pass R22's checks. -/
def modeFields (mask target damp : Byte) : Option (Option TargetMode × Option Bool) :=
  match targetCode target, dampCode damp with
  | some t, some d =>
    if maskNamesAxes mask && (t.isSome || d.isSome) && !(decide (t = some .follow) && mask &&& levelAxes != 0) then some (t, d)
    else none
  | _, _ => none

/-- An axis in the mask that the table of R23 refuses. -/
def modeRefused (s : State) (mask : AxisSet) (t : TargetMode) : Bool :=
  (axesOf mask).any (fun k => decide (transition (s.axis k).mode t = .refused))

/-- The DAMP action on every axis in the mask (R22, R27). -/
def State.setDamp (s : State) (mask : AxisSet) (b : Bool) : State :=
  { s with axes := s.axes.mapAxis (fun k a => if hasAxis mask k then { a with damp := b } else a) }

/-- The transitions of a MODE whose checks pass, then its DAMP action, before anything reacts (R22). -/
def State.applyMode (s : State) (mask : AxisSet) (target : Option TargetMode) (damp : Option Bool) : State :=
  let s := match target with
    | some t => (axesOf mask).foldl (fun s k => s.applyTransition k t) s
    | none => s
  match damp with
  | some b => s.setDamp mask b
  | none => s

/-- MODE (R22, R23). -/
def serveMode (s : State) (mask target damp : Byte) : Served :=
  match modeFields mask target damp with
  | none => refused s .range
  | some (t, d) =>
    if (match t with | some m => modeRefused s (axisSet mask) m | none => false) then refused s .state
    else done ((s.applyMode (axisSet mask) t d).settle [])

/-- A TUNE pair that passes steps 2 and 3 of R33. -/
def pairOk (k : Axis) (p : TunePair) : Bool := fieldApplies p.field.toNat k && fieldInRange p.field.toNat p.value.toInt

/-- The trial record of a TUNE (R33 step 4). -/
def trialRecord (r : Tuning) (pairs : List TunePair) : Tuning :=
  pairs.foldl (fun r p => r.setField p.field.toNat p.value.toInt) r

/-- TUNE (R33). -/
def serveTune (s : State) (axis : Byte) (pairs : List TunePair) : Served :=
  match axisOfIndex axis.toNat with
  | none => refused s .range
  | some k =>
    let trial := trialRecord (s.axis k).staged pairs
    if 1 ≤ pairs.length ∧ pairs.length ≤ 30 ∧ pairs.all (pairOk k) = true ∧ trial.crossOk = true then
      done (s.setAxis k { s.axis k with staged := trial })
    else refused s .range

/-- TUNE_READ (R34). -/
def serveTuneRead (s : State) (axis copy : Byte) : Served :=
  match axisOfIndex axis.toNat, copy.toNat with
  | some k, 0 => ⟨s, .ok, tuneRecord (s.axis k).active (s.axis k).swapPending⟩
  | some k, 1 => ⟨s, .ok, tuneRecord (s.axis k).staged (s.axis k).swapPending⟩
  | _, _ => refused s .range

/-- APPLY (R35). -/
def serveApply (s : State) (mask : Byte) : Served :=
  if maskNamesAxes mask then
    done { s with axes := s.axes.mapAxis (fun k a => if hasAxis (axisSet mask) k then { a with swapPending := true } else a) }
  else refused s .range

/-! ### Moves (chapter 4) -/

/-- The entries of a QUEUE_ADD as admitted, or nothing when one fails its check (R71). -/
def admitted (es : List RawEntry) : Option (List (Byte × EntryBody)) :=
  es.mapM (fun e => (admitBody e).map (fun b => (rawEntryTag e, b)))

/-- QUEUE_ADD (R72). -/
def serveQueueAdd (s : State) (es : List RawEntry) : Served :=
  match admitted es with
  | none => refused s .range
  | some xs =>
    if xs.isEmpty ∨ 8 < xs.length then refused s .range
    else if 32 < s.ms.queue.length + xs.length then refused s .full
    else ⟨(s.enqueue xs).settle [], .ok, halfBytes s.ms.nextSerial ++ [byteOf xs.length]⟩

def State.setRunning (s : State) (b : Bool) : State := { s with ms := { s.ms with running := b } }

/-- QUEUE_CTRL (R73, R89). -/
def serveQueueCtrl (s : State) (action : Byte) : Served :=
  match action.toNat with
  | 0 => done ((s.setRunning true).settle [])
  | 1 => done (s.setRunning false)
  | 2 => ⟨s.flush, .ok, [byteOf s.ms.queue.length]⟩
  | _ => refused s .range

/-- QUEUE_READ (R90). -/
def serveQueueRead (s : State) : Served := ⟨s, .ok, queueRecord s⟩

/-- The slot that record `j` of a write starting at `start` goes to, within the start's page (R68). -/
def writeSlot (start j : Nat) : Nat := start / 16 * 16 + (start % 16 + j) % 16

/-- A waypoint record as stored. -/
def storedWaypoint (r : WptRecord) : Waypoint := ⟨r.label, spreadOffsets r.mask r.offsets⟩

/-- The records written in list order (R68). -/
def writtenSlots (ws : List Waypoint) (start : Nat) (rs : List WptRecord) : List Waypoint :=
  rs.zipIdx.foldl (fun ws p => ws.set (writeSlot start p.2) (storedWaypoint p.1)) ws

/-- WPT_WRITE (R68). -/
def serveWptWrite (s : State) (start : Byte) (rs : List WptRecord) : Served :=
  if 63 < start.toNat ∨ rs.isEmpty = true ∨ 48 < rs.length ∨ rs.all (fun r => maskInFive r.mask) = false then refused s .range
  else if s.ms.locks.getLsbD (start.toNat / 16) then refused s .locked
  else done { s with ms := { s.ms with waypoints := writtenSlots s.ms.waypoints start.toNat rs } }

/-- WPT_READ (R69). -/
def serveWptRead (s : State) (start count : Byte) : Served :=
  if 63 < start.toNat ∨ count.toNat = 0 ∨ 16 < count.toNat ∨ 64 < start.toNat + count.toNat then refused s .range
  else ⟨s, .ok, ((s.ms.waypoints.drop start.toNat).take count.toNat).flatMap Waypoint.bytes⟩

/-- WPT_LOCK (R70). -/
def serveWptLock (s : State) (flags : Byte) : Served :=
  if 15 < flags.toNat then refused s .range else done { s with ms := { s.ms with locks := flags.setWidth 4 } }

/-! ### Cues (chapter 5) -/

/-- A source pair that passes R104's checks. -/
def cuePairOk (p : CuePair) : Bool := p.cue.toNat < 8 && (selectorOf p.code p.param).isSome

/-- The source table after the pairs, in list order (R104). -/
def tableWith (table : List Selector) (ps : List CuePair) : List Selector :=
  ps.foldl (fun t p => t.set p.cue.toNat ((selectorOf p.code p.param).getD .none)) table

/-- CUE (R104). -/
def serveCue (s : State) (clear set : Byte) (ps : List CuePair) : Served :=
  if ps.length ≤ 8 ∧ ps.all cuePairOk = true then
    let t := ((s.setCueTable (tableWith s.ms.cueSources ps)).changeCues (clearedAndSet s.ms.cues clear set)).settle []
    ⟨t, .ok, cueRecord t⟩
  else refused s .range

/-! ### Sweep (chapter 6) -/

/-- SWEEP (R109). It is served in UNPARKING too, as R109, R180 and R196 say, although R116 calls the unit IDLE throughout UNPARKING
(DEDUCED: notes/assumptions/30.md). -/
def serveSweep (s : State) (axis dlo dhi : Byte) (wn : Half) (q : Word) : Served :=
  match axisOfIndex axis.toNat with
  | none => refused s .range
  | some k =>
    if 63 < dhi.toNat ∨ dhi.toNat < dlo.toNat ∨ wn.toNat < 256 ∨ 8192 < wn.toNat then refused s .range
    else if s.sw.running then refused s .busy
    else if (s.axis k).mode ≠ .hold then refused s .state
    else ⟨s.startSweep k dlo.toNat dhi.toNat wn.toNat q, .accepted, []⟩

/-- SWEEP_STOP (R114). -/
def serveSweepStop (s : State) : Served :=
  if s.sw.running then ⟨s.abortSweep, .ok, [byteOf (axisIndex s.sw.axis), byteOf s.sw.savedD]⟩ else refused s .state

/-- SWEEP_READ (R118). -/
def serveSweepRead (s : State) : Served := ⟨s, .ok, sweepRecord s.sw⟩

/-! ### Alerts (chapter 8) -/

/-- ALERT_READ (R157). -/
def serveAlertRead (s : State) (option : Byte) : Served :=
  ⟨if option.getLsbD 0 then { s with alc := { s.alc with seen1 := false, seen2 := false } } else s, .ok, alertRecord s⟩

/-- A configuration record that passes R142's checks. -/
def configOf (r : CfgRecord) : Option SourceConfig :=
  match sourceOfNumber r.source.toNat with
  | none => none
  | some src =>
    if (r.level = 1 ∨ r.level = 2) ∧ r.enable.toNat ≤ 1 ∧ r.kind.toNat ≤ 1 ∧ ¬(isEvent src = true ∧ r.kind = 0) then
      some ⟨src, if r.level = 1 then .one else .two, r.enable = 1, r.kind = 1⟩
    else none

/-- ALERT_CFG (R142). -/
def serveAlertCfg (s : State) (rs : List CfgRecord) : Served :=
  match rs.mapM configOf with
  | none => refused s .range
  | some cs =>
    if cs.isEmpty ∨ 26 < cs.length then refused s .range else done ((s.configure cs).settle [])

/-- RESOLVE (R152, R153). -/
def serveResolve (s : State) (level : Byte) : Served :=
  match level.toNat with
  | 1 => if s.alc.inService1 then ⟨s.resolve1, .ok, [axisSetByte (clearedDamp s)]⟩ else refused s .state
  | 2 => if s.alc.inService2 then ⟨s.resolve2, .ok, [axisSetByte (returningAxes s)]⟩ else refused s .state
  | _ => refused s .range

def State.setTestMask (s : State) (m : AxisSet) : State := { s with alc := { s.alc with testMask := m } }

/-- ALERT_TEST (R155). -/
def serveAlertTest (s : State) (mask : Byte) (param : Half) : Served :=
  if maskInFive mask then done ((s.setTestMask (axisSet mask)).settle [.raised .test param]) else refused s .range

/-- ALERT_CANCEL (R156). -/
def serveAlertCancel (s : State) (mask : Word) : Served :=
  if mask.toNat < 2 ^ 26 then ⟨s.cancel mask, .ok, wordBytes (pendingMask (s.cancel mask))⟩ else refused s .range

/-! ### Store (chapter 10) -/

def State.setLatch (s : State) (b : Bool) : State := { s with ps := { s.ps with latch := b } }

/-- STORE_ARM (R183). -/
def serveStoreArm (s : State) (option : Byte) : Served :=
  if 1 < option.toNat then refused s .range
  else if s.ps.busy ≠ .idle then refused s .busy
  else done (s.setLatch (option = 0))

/-- STORE_SAVE (R184, R185). -/
def serveStoreSave (s : State) (slot : Byte) : Served :=
  match slotCheck s slot true with
  | some x => refused s x
  | none => ⟨(s.markPartial slot.toNat).beginBusy (.saving slot.toNat (capturedImage s)), .accepted, []⟩

/-- STORE_ERASE (R184, R186). -/
def serveStoreErase (s : State) (slot : Byte) : Served :=
  match slotCheck s slot false with
  | some x => refused s x
  | none => ⟨(s.markPartial slot.toNat).beginBusy (.erasing slot.toNat), .accepted, []⟩

/-- STORE_LOAD (R189). -/
def serveStoreLoad (s : State) (slot : Byte) : Served :=
  if 7 < slot.toNat then refused s .range
  else if s.ps.busy ≠ .idle then refused s .busy
  else if (s.slot slot.toNat).state ≠ .valid then refused s .state
  else
    let r := s.loadSlot slot.toNat
    ⟨r.1, r.2.1, natHalfBytes r.2.2⟩

/-- STORE_STATUS (R191). -/
def serveStoreStatus (s : State) (option : Byte) : Served :=
  ⟨if option.getLsbD 0 then { s with ps := { s.ps with parityFlag := false } } else s, .ok, storeRecord s⟩

/-- STORE_PROTECT (R184, R187). -/
def serveStoreProtect (s : State) (count freeze : Byte) : Served :=
  match protectCheck s count freeze with
  | some x => refused s x
  | none => ⟨s.beginBusy (.protecting count.toNat (freeze = 1)), .accepted, []⟩

/-! ### Park and bench (chapter 11) -/

/-- PARK (R194). -/
def servePark (s : State) : Served := if parkRefused s then refused s .state else done s.takePark

/-- UNPARK (R196). -/
def serveUnpark (s : State) : Served := if s.le.park = .parked then ⟨s.takeUnpark, .accepted, []⟩ else refused s .state

/-- STEP (R199). -/
def serveStep (s : State) : Served := if s.le.halted then done s.takeFrame else refused s .state

/-! ### Any request -/

/-- The requests served while PARKED (R180). -/
def servedParked : Request → Bool
  | .ident _ => true
  | .unpark => true
  | .storeStatus _ => true
  | .alertRead _ => true
  | _ => false

/-- A request under its own rule (R166 step 4). -/
def serveRule (s : State) : Request → Served
  | .ident o => serveIdent s o
  | .restart => serveRestart s
  | .halt => done s.takeHalt
  | .run => done s.takeRun
  | .step => serveStep s
  | .setup f => serveSetup s f
  | .state m => serveState s m
  | .mode m t d => serveMode s m t d
  | .demand m rs => serveDemand s m rs
  | .tune a ps => serveTune s a ps
  | .tuneRead a c => serveTuneRead s a c
  | .apply m => serveApply s m
  | .queueAdd es => serveQueueAdd s es
  | .queueCtrl a => serveQueueCtrl s a
  | .queueRead => serveQueueRead s
  | .wptWrite a rs => serveWptWrite s a rs
  | .wptRead a n => serveWptRead s a n
  | .wptLock f => serveWptLock s f
  | .cue c e ps => serveCue s c e ps
  | .sweep a lo hi w q => serveSweep s a lo hi w q
  | .sweepStop => serveSweepStop s
  | .sweepRead => serveSweepRead s
  | .alertRead o => serveAlertRead s o
  | .alertCfg rs => serveAlertCfg s rs
  | .resolve l => serveResolve s l
  | .alertTest m p => serveAlertTest s m p
  | .alertCancel m => serveAlertCancel s m
  | .storeArm o => serveStoreArm s o
  | .storeSave k => serveStoreSave s k
  | .storeErase k => serveStoreErase s k
  | .storeLoad k => serveStoreLoad s k
  | .storeStatus o => serveStoreStatus s o
  | .storeProtect c f => serveStoreProtect s c f
  | .park => servePark s
  | .unpark => serveUnpark s
  | .reportPlan k i => serveReportPlan s k i

/-- Steps 3 and 4 of R166: PARKED, then the request's own rule. -/
def serve (s : State) (r : Request) : Served :=
  if s.le.park = .parked ∧ servedParked r = false then refused s .parked else serveRule s r

end Sys2Proof.Machine
end

