-- ==== Sys2Proof/Machine/Link.lean ====
section
/-! DEFINITION. The Console Link (chapter 9): receive assembler with its rescan (R162 to R164), request buffer and silence restart
(R165), dispatcher (R166, R167, R176), transmit line (R168). -/

namespace Sys2Proof.Machine

/-! ### Link parts -/

def State.setRx (s : State) (r : RxState) : State := { s with cl := { s.cl with rx := r } }
def State.setDispatcher (s : State) (d : Dispatcher) : State := { s with cl := { s.cl with dispatcher := d } }
def State.setRequests (s : State) (q : List Frame) : State := { s with cl := { s.cl with requests := q } }

def State.countLengthError (s : State) : State :=
  { s with cl := { s.cl with counters := { s.cl.counters with lengthErrors := satInc s.cl.counters.lengthErrors } } }
def State.countCrcError (s : State) : State :=
  { s with cl := { s.cl with counters := { s.cl.counters with crcErrors := satInc s.cl.counters.crcErrors } } }
def State.countGap (s : State) : State :=
  { s with cl := { s.cl with counters := { s.cl.counters with gaps := satInc s.cl.counters.gaps } } }
def State.countOverrun (s : State) : State :=
  { s with cl := { s.cl with counters := { s.cl.counters with overruns := satInc s.cl.counters.overruns } } }
def State.countAdmitted (s : State) : State :=
  { s with cl := { s.cl with counters := { s.cl.counters with admitted := satInc s.cl.counters.admitted } } }

/-! ### The dispatcher (R166, R167, R176) -/

/-- The reply frame of a request frame (R166). -/
def replyTo (f : Frame) (x : Status) (items : List Byte) : Frame :=
  ⟨f.kind + 0x80, f.tag, x.code :: (if x.carriesItems then items else [])⟩

/-- A frame served, in the order of R166's four tests. -/
def serveFrame (s : State) (f : Frame) : Served :=
  match parseRequest f.kind f.payload with
  | .unknownKind => refused s .unknownKind
  | .badLength => refused s .badLength
  | .badEntry => refused s .range
  | .request r => serve s r

/-- The frame is a RESTART that was accepted (R176). -/
def restartAccepted (f : Frame) (x : Status) : Bool := decide (f.kind = 0x02) && decide (x = .ok)

/-- A reply enters the transmit queue, or waits for a place (R167). -/
def State.deliver (s : State) (reply : Frame) : State :=
  if s.txFree then s.pushTx reply else s.setDispatcher (.replyWaiting reply)

/-- The reply of an accepted RESTART: the dispatcher is RESTARTING from now on, and the reply enters the queue or is held (R176). -/
def State.deliverRestart (s : State) (reply : Frame) : State :=
  if s.txFree then (s.setDispatcher (.restarting none)).pushTx reply else s.setDispatcher (.restarting (some reply))

/-- A frame taken from the buffer is served and its reply delivered (R166, R167). -/
def State.answer (s : State) (f : Frame) : State :=
  let r := serveFrame s f
  let reply := replyTo f r.status r.items
  if restartAccepted f r.status then r.state.deliverRestart reply else r.state.deliver reply

/-- While READY, the dispatcher takes the oldest admitted frame, at most `n` of them (R166; the buffer holds up to 4). -/
def dispatchLoop : Nat → State → State
  | 0, s => s
  | n + 1, s =>
    match s.cl.dispatcher, s.cl.requests with
    | .ready, f :: rest => dispatchLoop n ((s.setRequests rest).answer f)
    | _, _ => s

def State.dispatch (s : State) : State := dispatchLoop 5 s

/-! ### A good frame (R165) -/

/-- A RESTART is pending: no frame is admitted (R176). -/
def restartPending (s : State) : Bool :=
  match s.cl.dispatcher with
  | .restarting _ => true
  | _ => false

/-- The frame is offered to the request buffer: admitted, or dropped as an overrun (R165). -/
def State.offerRequest (s : State) (f : Frame) : State :=
  if restartPending s || decide (4 ≤ s.cl.requests.length) then s.countOverrun
  else (s.countAdmitted).setRequests (s.cl.requests ++ [f])

/-- A good frame is complete: the silence timer restarts, the frame is offered, and the dispatcher takes what it can
(R165, R166; notes/assumptions/26.md). -/
def State.receive (s : State) (f : Frame) : State := (((s.restartSilence).settle []).offerRequest f).dispatch

/-! ### The receive assembler (R162, R163, R164) -/

/-- The length field of a frame whose bytes after the start byte are `store`. -/
def storeLength (store : List Byte) : Nat := (halfAt store 0).toNat

/-- The bytes after the start byte of a frame with `n` payload bytes: length, kind, tag, payload, CRC. -/
def frameSize (n : Nat) : Nat := n + 6

/-- The CRC-16 bytes of a complete frame are right (R161). -/
def storeGood (store : List Byte) : Bool :=
  crc16 (store.take (storeLength store + 4)) == halfAt store (storeLength store + 4)

/-- The frame that a complete store holds. -/
def storeFrame (store : List Byte) : Frame :=
  ⟨byteAt store 2, byteAt store 3, (store.drop 4).take (storeLength store)⟩

/-- What one byte does to the assembler: the state after it, and the bytes to take again (R162, R163). -/
def State.takeByte (s : State) (b : Byte) : State × List Byte :=
  match s.cl.rx with
  | .hunt => if b = 0xC5 then (s.setRx (.inFrame []), []) else (s, [])
  | .inFrame held =>
    let store := held ++ [b]
    if store.length < 2 then (s.setRx (.inFrame store), [])
    else if 1024 < storeLength store then ((s.setRx .hunt).countLengthError, store)
    else if store.length < frameSize (storeLength store) then (s.setRx (.inFrame store), [])
    else if storeGood store then ((s.setRx .hunt).receive (storeFrame store), [])
    else ((s.setRx .hunt).countCrcError, store)

/-- The bytes taken one at a time, those of a rescan before those of the line; `fuel` bounds the takings. -/
def feedLoop : Nat → List Byte → State → State
  | 0, _, s => s
  | _ + 1, [], s => s
  | fuel + 1, b :: bs, s =>
    let p := s.takeByte b
    feedLoop fuel (p.2 ++ bs) p.1

/-- The bytes held by the assembler. -/
def heldCount (s : State) : Nat :=
  match s.cl.rx with
  | .hunt => 0
  | .inFrame held => held.length + 1

/-- A bound on the takings: a rescan takes back fewer bytes than the frame it discards, so `m` bytes are taken at most
m + (m - 1) + … + 1 times (notes/assumptions/21.md). -/
def feedFuel (m : Nat) : Nat := (m + 1) * (m + 2)

/-- Bytes arrive on LINK_RX. -/
def State.feedLink (s : State) (bs : List Byte) : State := feedLoop (feedFuel (heldCount s + bs.length)) bs s

/-- The line is silent for more than 1 ms (R164). -/
def State.linkGap (s : State) : State :=
  match s.cl.rx with
  | .hunt => s
  | .inFrame _ => (s.setRx .hunt).countGap

/-- A frame's bytes arrive (R161). -/
def State.feedFrame (s : State) (f : Frame) : State := s.feedLink f.wire

/-- A console request arrives: the bytes of its frame (notes/assumptions/1.md). -/
def State.feedRequest (s : State) (tag : Byte) (r : Request) : State := s.feedFrame ⟨r.kind, tag, r.payload⟩

/-! ### The transmit line (R168, R167, R176) -/

/-- The frame is the reply OK of the RESTART that is pending: the reply has left the waiting place, so it is in the queue. -/
def isRestartReply (s : State) (f : Frame) : Bool :=
  decide (s.cl.dispatcher = .restarting none) && decide (f.kind = 0x82) && decide (f.payload = [Status.ok.code])

/-- A place has been freed: a waiting reply takes it, and the dispatcher goes on (R167, R168). -/
def State.placeFreed (s : State) : State :=
  match s.cl.dispatcher with
  | .ready => s.dispatch
  | .replyWaiting reply => ((s.setDispatcher .ready).pushTx reply).dispatch
  | .restarting (some reply) => (s.setDispatcher (.restarting none)).pushTx reply
  | .restarting none => s

/-- The last byte of the frame on the line goes out: its place is freed and the next starts; after the RESTART reply the part
resets (R168, R176). -/
def State.frameSent (s : State) : State :=
  match s.cl.txQueue with
  | [] => s
  | f :: rest =>
    if isRestartReply s f then s.restartReset
    else ({ s with cl := { s.cl with txQueue := rest } } : State).placeFreed

end Sys2Proof.Machine
end

