-- ==== Sys2Proof/Machine/Lines.lean ====
section
/-! DEFINITION. Bytes and events on the sensor and driver lines: records assembled and taken one after another (R1, R9, R125), silences
(R1), staleness (R6), the end of a drive word (R120). -/

namespace Sys2Proof.Machine

/-! ### Sensor records -/

/-- A complete inertial record is judged, and what follows from the port's new state comes about (R3 to R5, R140). -/
def State.takeInertial (s : State) (u : SenUnit) (r : List Byte) : State :=
  (s.setSen u ((s.si.sen.get u).take r)).settle []

/-- A complete encoder record is judged (R9, R140). -/
def State.takeEncoder (s : State) (k : Axis) (r : List Byte) : State :=
  (s.setEnc k ((s.si.enc.get k).take r)).settle []

def State.holdSen (s : State) (u : SenUnit) (held : List Byte) : State :=
  s.setSen u { s.si.sen.get u with held := held }

def State.holdEnc (s : State) (k : Axis) (held : List Byte) : State :=
  s.setEnc k { s.si.enc.get k with held := held }

/-- Bytes on a SEN line; while PARKED they are discarded unchecked (R1, R16). -/
def State.senBytesIn (s : State) (u : SenUnit) (bs : List Byte) : State :=
  if s.le.park = .parked then s
  else
    let p := assemble 20 (s.si.sen.get u).held bs
    p.1.foldl (fun s r => s.takeInertial u r) (s.holdSen u p.2)

/-- Bytes on an ENC line; while PARKED they are discarded unchecked (R9, R16). -/
def State.encBytesIn (s : State) (k : Axis) (bs : List Byte) : State :=
  if s.le.park = .parked then s
  else
    let p := assemble 4 (s.si.enc.get k).held bs
    p.1.foldl (fun s r => s.takeEncoder k r) (s.holdEnc k p.2)

/-- More than 50 µs of silence: a partial record is discarded; the sensor ports count it as rejected (R1, R9, R125). -/
def State.discardPartial (s : State) (port : RecordPort) : State :=
  match port with
  | .sen u =>
    let p := s.si.sen.get u
    if p.held.isEmpty then s else s.setSen u { p with held := [], rejected := satInc p.rejected }
  | .enc k =>
    let p := s.si.enc.get k
    if p.held.isEmpty then s else s.setEnc k { p with held := [], rejected := satInc p.rejected }
  | .drv k => s.setLink k { s.dl.get k with held := [] }

/-- A staleness timer reaches its limit: the unit or encoder becomes stale. Below the limit there is no expiry: an acceptance that falls
together with the expiry and is taken first restarts the timer, and the unit stays fresh (R6; notes/assumptions/3.md). -/
def State.expireStale (s : State) (port : StalePort) : State :=
  if staleDue s port then (s.makeStale port).settle [] else s

/-! ### Driver reports (R125) -/

/-- A complete report passes its check. -/
def reportGood (r : List Byte) : Bool := crc8 (r.take 4) == byteAt r 4

/-- A good report is kept, settles the outstanding request and ends the run of misses. -/
def DriveLink.keepReport (l : DriveLink) (r : List Byte) (frame : Word) : DriveLink :=
  { l with
    lastReport := some ⟨halfAt r 0, byteAt r 2, byteAt r 3, frame⟩, outstanding := false, missCount := 0 }

/-- A complete report: discarded, or kept, raising DRIVE_FAULT_k with FAULT when its fault bit is set (R125). -/
def State.takeReport (s : State) (k : Axis) (r : List Byte) : State :=
  if reportGood r then
    (s.setLink k ((s.dl.get k).keepReport r s.le.frameNo)).settle
      (if (byteAt r 3).getLsbD 0 then [.raised (.driveFault k) 1] else [])
  else s

/-- Bytes on a DRV line, received in every park state (R125). -/
def State.drvBytesIn (s : State) (k : Axis) (bs : List Byte) : State :=
  let p := assemble 5 (s.dl.get k).held bs
  p.1.foldl (fun s r => s.takeReport k r) (s.setLink k { s.dl.get k with held := p.2 })

/-! ### Drive words (R120) -/

/-- The last byte of the word on the line goes out: the waiting word starts, or the transmitter becomes IDLE. -/
def DriveLink.wordSent (l : DriveLink) : DriveLink :=
  match l.sending, l.waiting with
  | none, _ => l
  | some _, none => { l with sending := none }
  | some _, some w => { l with waiting := none }.start w

def State.driveWordSent (s : State) (k : Axis) : State := s.setLink k (s.dl.get k).wordSent

/-- The silence timer reaches its limit (R170). Below it there is no expiry: a good frame that falls together with the expiry and is
taken first restarts the timer (R171; notes/assumptions/3.md). -/
def State.silenceRunsOut (s : State) : State := if silenceDue s then s.expireSilence.settle [] else s

end Sys2Proof.Machine
end

