-- ==== Sys2Proof/Machine/Events.lean ====
section
/-! DEFINITION. The meanings of the event commands: resets, records and reports on the lines, timers, the kill and trigger lines,
the Console Link's frames, the store's completions. Each never stops: the manual gives every one an effect. -/

namespace Sys2Proof.Machine

/-- What a command answers. -/
abbrev Answer := Host.Outcome State Fault Refusal

/-- POWER_ON_RESET (R174, R18, R40, R92, R105, R119, R137, R160, R181, R192, R193). -/
def execPowerOnReset (pins : Pins) (s : State) : Answer := .next (s.resetWith .power pins)

/-- PIN_RESET (R174). -/
def execPinReset (pins : Pins) (s : State) : Answer := .next (s.resetWith .pin pins)

/-- INERTIAL_SAMPLE_RECORD (R1, R3 to R5). -/
def execInertialSampleRecord (u : SenUnit) (bytes : List Byte) (s : State) : Answer := .next (s.senBytesIn u bytes)

/-- ENCODER_RECORD (R9). -/
def execEncoderRecord (a : Axis) (bytes : List Byte) (s : State) : Answer := .next (s.encBytesIn a bytes)

/-- PARTIAL_RECORD_DISCARD (R1). -/
def execPartialRecordDiscard (port : RecordPort) (s : State) : Answer := .next (s.discardPartial port)

/-- STALENESS_EXPIRY (R6). -/
def execStalenessExpiry (port : StalePort) (s : State) : Answer := .next (s.expireStale port)

/-- LOOP_FRAME (R41). -/
def execLoopFrame (s : State) : Answer := .next (s.timerFrame)

/-- DRIVE_WORD_SENT (R120). -/
def execDriveWordSent (a : Axis) (s : State) : Answer := .next (s.driveWordSent a)

/-- DRIVER_REPORT (R125). -/
def execDriverReport (a : Axis) (bytes : List Byte) (s : State) : Answer := .next (s.drvBytesIn a bytes)

/-- KILL_ASSERTION (R129). -/
def execKillAssertion (s : State) : Answer := .next (s.assertKill)

/-- KILL_RELEASE (R130). -/
def execKillRelease (s : State) : Answer := .next (s.releaseKill)

/-- TRIGGER_LINE_CHANGE (R100). -/
def execTriggerLineChange (line : InputLine) (high : Bool) (s : State) : Answer := .next (s.changeInput line high)

/-- HOLD_OFF_EXPIRY (R100). -/
def execHoldOffExpiry (line : TrigLine) (s : State) : Answer := .next (s.expireHoldOff line)

/-- GOOD_FRAME (R165). -/
def execGoodFrame (kind tag : Byte) (payload : List Byte) (s : State) : Answer := .next (s.feedFrame ⟨kind, tag, payload⟩)

/-- LENGTH_ERROR (R163). -/
def execLengthError (hi lo : Byte) (s : State) : Answer := .next (s.feedLink [0xC5, hi, lo])

/-- CRC_ERROR (R163). -/
def execCrcError (kind tag : Byte) (payload : List Byte) (crcHi crcLo : Byte) (s : State) : Answer :=
  .next (s.feedLink (0xC5 :: coveredBytes kind tag payload ++ [crcHi, crcLo]))

/-- GAP (R164). -/
def execGap (bytes : List Byte) (s : State) : Answer := .next ((s.feedLink bytes).linkGap)

/-- CONSOLE_FRAME_SENT (R168). -/
def execConsoleFrameSent (s : State) : Answer := .next s.frameSent

/-- SILENCE_EXPIRY (R170). -/
def execSilenceExpiry (s : State) : Answer := .next (s.silenceRunsOut)

/-- UNKNOWN_KIND (R166). -/
def execUnknownKind (kind tag : Byte) (payload : List Byte) (s : State) : Answer := .next (s.feedFrame ⟨kind, tag, payload⟩)

/-- SAVE_COMPLETION (R188). -/
def execSaveCompletion (s : State) : Answer := .next (s.completeSave)

/-- ERASE_COMPLETION (R188). -/
def execEraseCompletion (s : State) : Answer := .next (s.completeErase)

/-- PROTECT_COMPLETION (R188). -/
def execProtectCompletion (s : State) : Answer := .next (s.completeProtect)

/-- UNPARK_SETTLING_END (R196). -/
def execUnparkSettlingEnd (s : State) : Answer := .next (s.endSettling)

end Sys2Proof.Machine
end

