-- ==== Sys2Proof/Machine/Commands.lean ====
section
/-! DEFINITION. The meanings of the request commands: each is the console's request arriving as the bytes of its frame
(notes/assumptions/1.md). What the request does and answers is in Requests.lean. -/

namespace Sys2Proof.Machine

/-- IDENT (R175). -/
def execIdent (tag option : Byte) (s : State) : Answer := .next (s.feedRequest tag (.ident option))

/-- RESTART (R176). -/
def execRestart (tag : Byte) (s : State) : Answer := .next (s.feedRequest tag .restart)

/-- HALT (R197). -/
def execHalt (tag : Byte) (s : State) : Answer := .next (s.feedRequest tag .halt)

/-- RUN (R198). -/
def execRun (tag : Byte) (s : State) : Answer := .next (s.feedRequest tag .run)

/-- STEP (R199). -/
def execStep (tag : Byte) (s : State) : Answer := .next (s.feedRequest tag .step)

/-- SETUP (R173). -/
def execSetup (tag : Byte) (fields : SetupFields) (s : State) : Answer := .next (s.feedRequest tag (.setup fields))

/-- STATE (R39). -/
def execState (tag mask : Byte) (s : State) : Answer := .next (s.feedRequest tag (.state mask))

/-- MODE (R22). -/
def execMode (tag mask target damp : Byte) (s : State) : Answer := .next (s.feedRequest tag (.mode mask target damp))

/-- DEMAND (R172). -/
def execDemand (tag mask : Byte) (rates : List Half) (s : State) : Answer := .next (s.feedRequest tag (.demand mask rates))

/-- TUNE (R33). -/
def execTune (tag axis : Byte) (pairs : List TunePair) (s : State) : Answer := .next (s.feedRequest tag (.tune axis pairs))

/-- TUNE_READ (R34). -/
def execTuneRead (tag axis copy : Byte) (s : State) : Answer := .next (s.feedRequest tag (.tuneRead axis copy))

/-- APPLY (R35). -/
def execApply (tag mask : Byte) (s : State) : Answer := .next (s.feedRequest tag (.apply mask))

/-- QUEUE_ADD (R72). -/
def execQueueAdd (tag : Byte) (entries : List RawEntry) (s : State) : Answer := .next (s.feedRequest tag (.queueAdd entries))

/-- QUEUE_CTRL with RUN (R73). -/
def execQueueCtrlRun (tag : Byte) (s : State) : Answer := .next (s.feedRequest tag (.queueCtrl 0))

/-- QUEUE_CTRL with PAUSE (R73). -/
def execQueueCtrlPause (tag : Byte) (s : State) : Answer := .next (s.feedRequest tag (.queueCtrl 1))

/-- QUEUE_CTRL with FLUSH (R89). -/
def execQueueCtrlFlush (tag : Byte) (s : State) : Answer := .next (s.feedRequest tag (.queueCtrl 2))

/-- QUEUE_READ (R90). -/
def execQueueRead (tag : Byte) (s : State) : Answer := .next (s.feedRequest tag .queueRead)

/-- WPT_WRITE (R68). -/
def execWptWrite (tag start : Byte) (records : List WptRecord) (s : State) : Answer :=
  .next (s.feedRequest tag (.wptWrite start records))

/-- WPT_READ (R69). -/
def execWptRead (tag start count : Byte) (s : State) : Answer := .next (s.feedRequest tag (.wptRead start count))

/-- WPT_LOCK (R70). -/
def execWptLock (tag flags : Byte) (s : State) : Answer := .next (s.feedRequest tag (.wptLock flags))

/-- CUE (R104). -/
def execCue (tag clear set : Byte) (pairs : List CuePair) (s : State) : Answer := .next (s.feedRequest tag (.cue clear set pairs))

/-- SWEEP (R109). -/
def execSweep (tag axis dlo dhi : Byte) (wn : Half) (q : Word) (s : State) : Answer :=
  .next (s.feedRequest tag (.sweep axis dlo dhi wn q))

/-- SWEEP_STOP (R114). -/
def execSweepStop (tag : Byte) (s : State) : Answer := .next (s.feedRequest tag .sweepStop)

/-- SWEEP_READ (R118). -/
def execSweepRead (tag : Byte) (s : State) : Answer := .next (s.feedRequest tag .sweepRead)

/-- ALERT_READ (R157). -/
def execAlertRead (tag option : Byte) (s : State) : Answer := .next (s.feedRequest tag (.alertRead option))

/-- ALERT_CFG (R142). -/
def execAlertCfg (tag : Byte) (records : List CfgRecord) (s : State) : Answer := .next (s.feedRequest tag (.alertCfg records))

/-- RESOLVE of level 2 (R152). -/
def execResolveLevel2 (tag : Byte) (s : State) : Answer := .next (s.feedRequest tag (.resolve 2))

/-- RESOLVE of level 1 (R153). -/
def execResolveLevel1 (tag : Byte) (s : State) : Answer := .next (s.feedRequest tag (.resolve 1))

/-- ALERT_TEST (R155). -/
def execAlertTest (tag mask : Byte) (param : Half) (s : State) : Answer := .next (s.feedRequest tag (.alertTest mask param))

/-- ALERT_CANCEL (R156). -/
def execAlertCancel (tag : Byte) (mask : Word) (s : State) : Answer := .next (s.feedRequest tag (.alertCancel mask))

/-- STORE_ARM with arm (R183). -/
def execStoreArm (tag : Byte) (s : State) : Answer := .next (s.feedRequest tag (.storeArm 0))

/-- STORE_ARM with disarm (R183). -/
def execStoreDisarm (tag : Byte) (s : State) : Answer := .next (s.feedRequest tag (.storeArm 1))

/-- STORE_SAVE (R185). -/
def execStoreSave (tag slot : Byte) (s : State) : Answer := .next (s.feedRequest tag (.storeSave slot))

/-- STORE_ERASE (R186). -/
def execStoreErase (tag slot : Byte) (s : State) : Answer := .next (s.feedRequest tag (.storeErase slot))

/-- STORE_PROTECT (R187), with PROT_N at the given level. -/
def execStoreProtect (tag count freeze : Byte) (protN : Bool) (s : State) : Answer :=
  .next ((s.setProt protN).feedRequest tag (.storeProtect count freeze))

/-- STORE_LOAD (R189). -/
def execStoreLoad (tag slot : Byte) (s : State) : Answer := .next (s.feedRequest tag (.storeLoad slot))

/-- STORE_STATUS (R191), with PROT_N at the given level. -/
def execStoreStatus (tag option : Byte) (protN : Bool) (s : State) : Answer :=
  .next ((s.setProt protN).feedRequest tag (.storeStatus option))

/-- PARK (R194). -/
def execPark (tag : Byte) (s : State) : Answer := .next (s.feedRequest tag .park)

/-- UNPARK (R196). -/
def execUnpark (tag : Byte) (s : State) : Answer := .next (s.feedRequest tag .unpark)

/-- REPORT_PLAN (R177). -/
def execReportPlan (tag set : Byte) (interval : Half) (s : State) : Answer := .next (s.feedRequest tag (.reportPlan set interval))

end Sys2Proof.Machine
end

