-- ==== Sys2Proof/Machine/Dispatch.lean ====
section
/-! DEFINITION. One arm per command. -/

namespace Sys2Proof.Machine

def exec (i : Instr) (s : State) : Host.Outcome State Fault Refusal :=
  match i with
  | .powerOnReset pins => Sys2Proof.Machine.execPowerOnReset pins s
  | .pinReset pins => Sys2Proof.Machine.execPinReset pins s
  | .inertialSampleRecord u bytes => Sys2Proof.Machine.execInertialSampleRecord u bytes s
  | .encoderRecord a bytes => Sys2Proof.Machine.execEncoderRecord a bytes s
  | .partialRecordDiscard port => Sys2Proof.Machine.execPartialRecordDiscard port s
  | .stalenessExpiry port => Sys2Proof.Machine.execStalenessExpiry port s
  | .loopFrame => Sys2Proof.Machine.execLoopFrame s
  | .driveWordSent a => Sys2Proof.Machine.execDriveWordSent a s
  | .driverReport a bytes => Sys2Proof.Machine.execDriverReport a bytes s
  | .killAssertion => Sys2Proof.Machine.execKillAssertion s
  | .killRelease => Sys2Proof.Machine.execKillRelease s
  | .triggerLineChange line high => Sys2Proof.Machine.execTriggerLineChange line high s
  | .holdOffExpiry line => Sys2Proof.Machine.execHoldOffExpiry line s
  | .goodFrame kind tag payload => Sys2Proof.Machine.execGoodFrame kind tag payload s
  | .lengthError hi lo => Sys2Proof.Machine.execLengthError hi lo s
  | .crcError kind tag payload crcHi crcLo => Sys2Proof.Machine.execCrcError kind tag payload crcHi crcLo s
  | .gap bytes => Sys2Proof.Machine.execGap bytes s
  | .consoleFrameSent => Sys2Proof.Machine.execConsoleFrameSent s
  | .silenceExpiry => Sys2Proof.Machine.execSilenceExpiry s
  | .unknownKind kind tag payload => Sys2Proof.Machine.execUnknownKind kind tag payload s
  | .ident tag option => Sys2Proof.Machine.execIdent tag option s
  | .restart tag => Sys2Proof.Machine.execRestart tag s
  | .halt tag => Sys2Proof.Machine.execHalt tag s
  | .run tag => Sys2Proof.Machine.execRun tag s
  | .step tag => Sys2Proof.Machine.execStep tag s
  | .setup tag fields => Sys2Proof.Machine.execSetup tag fields s
  | .state tag mask => Sys2Proof.Machine.execState tag mask s
  | .mode tag mask target damp => Sys2Proof.Machine.execMode tag mask target damp s
  | .demand tag mask rates => Sys2Proof.Machine.execDemand tag mask rates s
  | .tune tag axis pairs => Sys2Proof.Machine.execTune tag axis pairs s
  | .tuneRead tag axis copy => Sys2Proof.Machine.execTuneRead tag axis copy s
  | .apply tag mask => Sys2Proof.Machine.execApply tag mask s
  | .queueAdd tag entries => Sys2Proof.Machine.execQueueAdd tag entries s
  | .queueCtrlRun tag => Sys2Proof.Machine.execQueueCtrlRun tag s
  | .queueCtrlPause tag => Sys2Proof.Machine.execQueueCtrlPause tag s
  | .queueCtrlFlush tag => Sys2Proof.Machine.execQueueCtrlFlush tag s
  | .queueRead tag => Sys2Proof.Machine.execQueueRead tag s
  | .wptWrite tag start records => Sys2Proof.Machine.execWptWrite tag start records s
  | .wptRead tag start count => Sys2Proof.Machine.execWptRead tag start count s
  | .wptLock tag flags => Sys2Proof.Machine.execWptLock tag flags s
  | .cue tag clear set pairs => Sys2Proof.Machine.execCue tag clear set pairs s
  | .sweep tag axis dlo dhi wn q => Sys2Proof.Machine.execSweep tag axis dlo dhi wn q s
  | .sweepStop tag => Sys2Proof.Machine.execSweepStop tag s
  | .sweepRead tag => Sys2Proof.Machine.execSweepRead tag s
  | .alertRead tag option => Sys2Proof.Machine.execAlertRead tag option s
  | .alertCfg tag records => Sys2Proof.Machine.execAlertCfg tag records s
  | .resolveLevel2 tag => Sys2Proof.Machine.execResolveLevel2 tag s
  | .resolveLevel1 tag => Sys2Proof.Machine.execResolveLevel1 tag s
  | .alertTest tag mask param => Sys2Proof.Machine.execAlertTest tag mask param s
  | .alertCancel tag mask => Sys2Proof.Machine.execAlertCancel tag mask s
  | .storeArm tag => Sys2Proof.Machine.execStoreArm tag s
  | .storeDisarm tag => Sys2Proof.Machine.execStoreDisarm tag s
  | .storeSave tag slot => Sys2Proof.Machine.execStoreSave tag slot s
  | .storeErase tag slot => Sys2Proof.Machine.execStoreErase tag slot s
  | .storeProtect tag count freeze protN => Sys2Proof.Machine.execStoreProtect tag count freeze protN s
  | .storeLoad tag slot => Sys2Proof.Machine.execStoreLoad tag slot s
  | .storeStatus tag option protN => Sys2Proof.Machine.execStoreStatus tag option protN s
  | .saveCompletion => Sys2Proof.Machine.execSaveCompletion s
  | .eraseCompletion => Sys2Proof.Machine.execEraseCompletion s
  | .protectCompletion => Sys2Proof.Machine.execProtectCompletion s
  | .park tag => Sys2Proof.Machine.execPark tag s
  | .unpark tag => Sys2Proof.Machine.execUnpark tag s
  | .unparkSettlingEnd => Sys2Proof.Machine.execUnparkSettlingEnd s
  | .reportPlan tag set interval => Sys2Proof.Machine.execReportPlan tag set interval s

end Sys2Proof.Machine
end

