-- ==== Sys2Proof/Machine/Idle.lean ====
section
/-! DEFINITION. What wall time does while no command waits: the expiry of a timer that has reached its limit, or else one unit of time
(notes/assumptions/2.md). -/

namespace Sys2Proof.Machine

/-! ### Fixed periods -/

/-- The hold-off of a trigger line: 2 ms (R100). -/
def holdOffUnits : Nat := 2 * Config.unitsPerMs

/-- The settling period of UNPARK: 50 ms (R196). -/
def settlingUnits : Nat := 50 * Config.unitsPerMs

/-- The time of a store operation: 45, 80 and 20 ms (R185, R186, R187). -/
def busyUnits : Busy → Nat
  | .idle => 0
  | .saving _ _ => 45 * Config.unitsPerMs
  | .erasing _ => 80 * Config.unitsPerMs
  | .protecting _ _ => 20 * Config.unitsPerMs

/-- The completion of the operation in progress (R188). -/
def completionOf : Busy → List Instr
  | .idle => []
  | .saving _ _ => [.saveCompletion]
  | .erasing _ => [.eraseCompletion]
  | .protecting _ _ => [.protectCompletion]

/-! ### Timers that have reached their limits -/

/-- The eight sensor ports. -/
def allPorts : List StalePort := [.sen .base, .sen .tip, .sen .head] ++ allAxes.map .enc

/-- The line's hold-off runs and has reached its end. -/
def holdOffDue (s : State) (line : TrigLine) : Bool := (s.trig line).holdOff && decide (holdOffUnits ≤ (s.trig line).elapsed)

/-- The expiries that are due, each as its command. -/
def dueExpiries (s : State) : List Instr :=
  (allPorts.filter (staleDue s)).map .stalenessExpiry ++ (if silenceDue s then [.silenceExpiry] else []) ++
  ([TrigLine.trig0, .trig1].filter (holdOffDue s)).map .holdOffExpiry ++
  (if s.le.frameTimer && decide (Config.unitsPerLoopFrame ≤ s.le.frameElapsed) then [.loopFrame] else []) ++
  (if decide (s.le.park = .unparking) && decide (settlingUnits ≤ s.le.settleElapsed) then [.unparkSettlingEnd] else []) ++
  (if decide (busyUnits s.ps.busy ≤ s.ps.busyElapsed) then completionOf s.ps.busy else [])

/-- While no command waits: an expiry that is due is taken, one of several by a free choice, so that wall time never passes a limit;
otherwise one unit of wall time passes. -/
def State.idle (s : State) : Answer :=
  match dueExpiries s with
  | [] => .next s.tick
  | c :: cs =>
    let p := s.choose (cs.length + 1)
    exec (((c :: cs)[p.1]?).getD c) p.2

end Sys2Proof.Machine
end

