-- ==== Sys2Proof/Safety.lean ====
section
/-! DEFINITION. What counts as a safe run, in the terms the statements use: the part at rest, the link ready for a request, the
sizes and ranges that every step keeps, what a settling leaves alone. -/

namespace Sys2Proof.Machine

/-! ### At rest -/

/-- Nothing is waiting to come about: every truth is recorded, no source can be taken, the head cannot move. -/
abbrev AtRest (s : State) : Prop :=
  s.dropFallen = s ∧ risings s = [] ∧ s.arbitrate = none ∧ s.headStep = none

/-- The link takes a request at once: the assembler hunts, the dispatcher is READY with an empty buffer, the console has not been
given up as silent, and the part is at rest. -/
abbrev LinkReady (s : State) : Prop :=
  s.cl.rx = .hunt ∧ s.cl.dispatcher = .ready ∧ s.cl.requests = [] ∧ s.cl.silence ≠ .expired ∧ AtRest s

/-- A request sent now is served at once under its own rule: the link is ready and the part is not PARKED (R166, R180). -/
abbrev Serving (s : State) : Prop := LinkReady s ∧ s.le.park ≠ .parked

/-- The state a request is served in when the link is ready: the silence timer restarted, the frame counted as admitted
(R165, R169). -/
def State.arrived (s : State) : State := s.restartSilence.countAdmitted

/-- A reply with the status alone, to a request of code `kind` (R166). -/
def statusReply (kind tag : Byte) (x : Status) : Frame := ⟨kind + 0x80, tag, [x.code]⟩

/-- A reply OK with items. -/
def okReply (kind tag : Byte) (items : List Byte) : Frame := ⟨kind + 0x80, tag, Status.ok.code :: items⟩

/-! ### Sizes that every step keeps -/

/-- The images of the store are canonical, and the protect count is in its range (R182, R187). -/
def Store.wf (p : Store) : Bool :=
  p.slots.length == 8 && p.slots.all (fun x => x.image.wf) && decide (p.protectCount ≤ 8) &&
  match p.busy with
  | .saving _ img => img.wf
  | .protecting count _ => decide (count ≤ 8)
  | _ => true

/-- The bounds on the part's queues and the sizes of its tables (R13, R67, R72, R88, R94, R108, R165, R168, R182). -/
abbrev Bounded (s : State) : Prop :=
  s.ms.queue.length ≤ 32 ∧ s.ms.doneList.length ≤ 8 ∧ s.cl.requests.length ≤ 4 ∧ s.cl.txQueue.length ≤ 4 ∧
  s.le.ring.length = 64 ∧ s.ms.waypoints.length = 64 ∧ s.ms.cueSources.length = 8 ∧ s.sw.results.length = 64 ∧ s.ps.wf = true

/-! ### Ranges that every step keeps -/

/-- An axis's tuning copies are within the ranges of R32 and its integrator, demand and rates within the active record's bounds
(R52, R56, R62). -/
abbrev AxisInRange (a : AxisRec) : Prop :=
  a.active.ok = true ∧ a.staged.ok = true ∧ a.i.toInt.natAbs ≤ a.active.imax ∧ a.uPrev.toInt.natAbs ≤ a.active.umax ∧
  a.rdEff.toInt.natAbs ≤ a.active.rmax ∧ a.rdTarget.toInt.natAbs ≤ a.active.rmax

/-- Every axis is in range, and a running sweep works within D = 0..63 (R107, R112). -/
abbrev InRange (s : State) : Prop :=
  (AxisInRange s.axes.swing ∧ AxisInRange s.axes.lift ∧ AxisInRange s.axes.pan ∧ AxisInRange s.axes.tilt ∧
    AxisInRange s.axes.roll) ∧
  (s.sw.running = true → s.sw.dhi ≤ 63 ∧ s.sw.savedD ≤ 63 ∧ s.sw.currentD ≤ 63)

/-! ### Rules that tie registers together -/

/-- No DRIVE word waits on a drive link outside RUNNING, and none waits behind an IDLE transmitter (R120, R122). -/
abbrev DriveHeldBack (s : State) : Prop :=
  ∀ k, ((s.dl.get k).sending = none → (s.dl.get k).waiting = none) ∧
    (s.le.park ≠ .running → ∀ w, (s.dl.get k).waiting = some w → w.command ≠ .drive)

/-- The frame timer runs exactly when the park state is RUNNING or UNPARKING and the halted flag is clear (R193); the head phase is
NONE exactly when the queue is empty (R75); the hold reasons stand while the kill line is asserted (R129, R130) and while level 2 is in
service (R150, R152); a level in service has its cause and link records (R147). -/
abbrev Coherent (s : State) : Prop :=
  (s.le.frameTimer = true ↔ s.le.park ≠ .parked ∧ s.le.halted = false) ∧ (s.ms.phase = .none ↔ s.ms.queue = []) ∧
  s.ms.holdKill = s.killAsserted ∧ s.ms.holdAlert = s.alc.inService2 ∧
  (s.alc.inService1 = true → s.alc.cause1.isSome = true ∧ s.alc.link1.isSome = true) ∧
  (s.alc.inService2 = true → s.alc.cause2.isSome = true ∧ s.alc.link2.isSome = true)

/-! ### What a settling leaves alone -/

/-- `t` differs from `s` at most in the axes, the Move Sequencer, the sweep, the Alert Controller, the transmit queue with its drop
counter, and the model's choice fields. -/
abbrev SameOutside (s t : State) : Prop :=
  t.si = s.si ∧ t.le = s.le ∧ t.dl = s.dl ∧ t.killAsserted = s.killAsserted ∧ t.ps = s.ps ∧ t.protHigh = s.protHigh ∧
  t.pending = s.pending ∧
  t.cl =
    { s.cl with
      txQueue := t.cl.txQueue, counters := { s.cl.counters with unaskedDrops := t.cl.counters.unaskedDrops } }

end Sys2Proof.Machine
end

