-- ==== Sys2Proof/WellFormed.lean ====
section
/-! DEFINITION. Well-formed commands: the operands fit the shape that the layouts of section 9.9 give the row. A command that is
not well formed still runs (its bytes are taken as they come); well-formedness says when the row's name is what happens. -/

namespace Sys2Proof

/-- A queue entry carries one delta for each axis that its mask names. -/
def RawEntry.wf : RawEntry → Bool
  | .shift _ m ds _ _ => ds.length == axisCount m
  | _ => true

/-- A waypoint record carries one offset for each axis that its mask names. -/
def WptRecord.wf (r : WptRecord) : Bool := r.offsets.length == axisCount r.mask

/-- A request has a wire form: its counts fit their byte, its lists fit their masks, its payload fits a frame (R161). -/
def Request.wf (r : Request) : Bool :=
  r.payload.length ≤ 1024 &&
  match r with
  | .demand m rs => rs.length == axisCount m
  | .tune _ ps => ps.length < 256
  | .queueAdd es => es.length < 256 && es.all RawEntry.wf
  | .wptWrite _ rs => rs.length < 256 && rs.all WptRecord.wf
  | .cue _ _ ps => ps.length < 256
  | .alertCfg rs => rs.length < 256
  | _ => true

/-- The request codes of the catalogue (R180). -/
def requestCodes : List Byte :=
  [0x01, 0x02, 0x03, 0x04, 0x05, 0x06, 0x08, 0x09, 0x0A, 0x0B, 0x0C, 0x0D, 0x10, 0x11, 0x12, 0x14, 0x15, 0x16, 0x18,
   0x1C, 0x1D, 0x1E, 0x20, 0x21, 0x22, 0x23, 0x24, 0x28, 0x29, 0x2A, 0x2B, 0x2C, 0x2D, 0x30, 0x31, 0x34]

/-- A command is well formed: complete records, lengths as the row's name says, requests with a wire form. -/
def Instr.wf (i : Instr) : Bool :=
  match i with
  | .inertialSampleRecord _ bs => bs.length == 20
  | .encoderRecord _ bs => bs.length == 4
  | .driverReport _ bs => bs.length == 5
  | .goodFrame _ _ p => p.length ≤ 1024
  | .lengthError hi lo => 1024 < (Machine.halfOf hi lo).toNat
  | .crcError k t p hi lo => p.length ≤ 1024 && Machine.crc16 (Machine.coveredBytes k t p) != Machine.halfOf hi lo
  | .unknownKind k _ p => p.length ≤ 1024 && !requestCodes.contains k
  | i =>
    match i.requestOf with
    | some (_, r) => r.wf
    | none => true

end Sys2Proof
end

