-- ==== Sys2Proof/Certificates/Slice0/Obligations.lean ====
section
/-! DEFINITION. The statements about the model, from the numbered rules of spec/. -/

section

open Sys2Proof Sys2Proof.Machine

/-! ### The step -/

/-- A step takes the command at the front of the queue and runs it on the state with the queue's rest. -/
def Obligations.StepRunsFrontCommand : Prop :=
  ∀ (c : Instr) (rest : List Instr) (s : State), s.pending = c :: rest → step s = exec c { s with pending := rest }

/-- On an empty queue wall time goes on. Where a timer that runs has reached its limit, the step is that of the expiry's command, and where
several have, any of them can come; otherwise one unit of time passes: the timers that run count, nothing else changes. The unit and the
idle step are the model's choice (DESIGN CHOICE, notes/assumptions/2.md), and which of several expiries comes first is free
(notes/assumptions/5.md). -/
def Obligations.EmptyQueueLetsTimePass : Prop :=
  ∀ s : State, s.pending = [] →
    let stale (u : SenUnit) : Nat := 15625 * s.cl.setup.staleLimit.get u
    let due (c : Instr) : Prop :=
      match c with
      | .stalenessExpiry (.sen u) => (s.si.sen.get u).fresh = true ∧ stale u ≤ (s.si.sen.get u).elapsed
      | .stalenessExpiry (.enc k) =>
        (s.si.enc.get k).fresh = true ∧ stale (if k = .swing ∨ k = .lift then .tip else .head) ≤ (s.si.enc.get k).elapsed
      | .silenceExpiry => s.cl.silence = .running ∧ 32000 * s.cl.setup.silenceLimit ≤ s.cl.silenceElapsed
      | .holdOffExpiry line => (s.trig line).holdOff = true ∧ 64000 ≤ (s.trig line).elapsed
      | .loopFrame => s.le.frameTimer = true ∧ 15625 ≤ s.le.frameElapsed
      | .unparkSettlingEnd => s.le.park = .unparking ∧ 1600000 ≤ s.le.settleElapsed
      | .saveCompletion => (∃ k img, s.ps.busy = .saving k img) ∧ 1440000 ≤ s.ps.busyElapsed
      | .eraseCompletion => (∃ k, s.ps.busy = .erasing k) ∧ 2560000 ≤ s.ps.busyElapsed
      | .protectCompletion => (∃ n b, s.ps.busy = .protecting n b) ∧ 640000 ≤ s.ps.busyElapsed
      | _ => False
    ((∃ c, due c) → ∃ c schedule freeCount, due c ∧ step s = exec c { s with schedule := schedule, freeCount := freeCount }) ∧
    (∀ c, due c → ∃ n, ∀ rest, ∃ left, step { s with schedule := n :: rest } = exec c { s with schedule := left }) ∧
    (∀ c, due c → (∀ d, due d → d = c) → step s = exec c s) ∧
    ((∀ c, ¬due c) →
      ∃ t, step s = .next t ∧
        (∀ u, t.si.sen.get u =
          { s.si.sen.get u with elapsed := (s.si.sen.get u).elapsed + (if (s.si.sen.get u).fresh then 1 else 0) }) ∧
        (∀ k, t.si.enc.get k =
          { s.si.enc.get k with elapsed := (s.si.enc.get k).elapsed + (if (s.si.enc.get k).fresh then 1 else 0) }) ∧
        t.le =
          { s.le with
            frameElapsed := s.le.frameElapsed + (if s.le.frameTimer then 1 else 0)
            settleElapsed := s.le.settleElapsed + (if s.le.park = .unparking then 1 else 0) } ∧
        t.ms =
          { s.ms with
            trig0 := { s.ms.trig0 with elapsed := s.ms.trig0.elapsed + (if s.ms.trig0.holdOff then 1 else 0) }
            trig1 := { s.ms.trig1 with elapsed := s.ms.trig1.elapsed + (if s.ms.trig1.holdOff then 1 else 0) } } ∧
        t.cl = { s.cl with silenceElapsed := s.cl.silenceElapsed + (if s.cl.silence = .running then 1 else 0) } ∧
        t.ps = { s.ps with busyElapsed := s.ps.busyElapsed + (if s.ps.busy = .idle then 0 else 1) } ∧
        t.axes = s.axes ∧ t.sw = s.sw ∧ t.dl = s.dl ∧ t.killAsserted = s.killAsserted ∧ t.alc = s.alc ∧
        t.protHigh = s.protHigh ∧ t.pending = [] ∧ t.schedule = s.schedule ∧ t.freeCount = s.freeCount)

/-- No command touches the queue of the commands that wait. -/
def Obligations.CommandsLeaveQueueAlone : Prop :=
  ∀ (i : Instr) (s t : State), exec i s = .next t → t.pending = s.pending

/-! ### Resets -/

/-- A power-on or pin reset with KILL_N high leaves every block at its values after reset; the store keeps its slots, protect
count and freeze flag. The trigger lines' accepted levels are the lines' levels. The model's own in it: the level of PROT_N as the
reset's operand gives it (DESIGN CHOICE, notes/assumptions/9.md), and the held parameters at 0 inside State.reset (DESIGN CHOICE,
notes/assumptions/22.md). -/
def Obligations.ResetLeavesBlocksAtTheirValues : Prop :=
  ∀ (pins : Pins) (s : State), pins.killN = true →
    let after (cause : ResetCause) : State :=
      { State.reset with
        ms := { State.reset.ms with trig0 := ⟨pins.trig0, pins.trig0, false, 0⟩, trig1 := ⟨pins.trig1, pins.trig1, false, 0⟩ }
        cl := { State.reset.cl with resetCause := cause }
        ps := { s.ps with latch := false, busy := .idle, busyElapsed := 0, parityFlag := false, lastBad := none }
        protHigh := pins.protN
        pending := s.pending
        schedule := s.schedule
        freeCount := s.freeCount }
    exec (.powerOnReset pins) s = .next (after .power) ∧ exec (.pinReset pins) s = .next (after .pin)

/-- What each of the three resets leaves, KILL_N being high (a low KILL_N is ResetTakesLowKillLine's), item by item: the sensor ports and
vehicle references, the axis records with both tuning copies, the move state, the cue machinery, the sweep, the drive links, the alert
configuration, the console's registers with the cause of the reset. The trigger lines' accepted levels are the lines' levels as the
reset ends. The model's own in it: the held parameters at 0 (DESIGN CHOICE, notes/assumptions/22.md) and a stopped timer's reading of 0
(DESIGN CHOICE, notes/assumptions/24.md). -/
def Obligations.ResetValuesAreThoseListed : Prop :=
  ∀ (pins : Pins) (s t : State),
    let power : Prop := exec (.powerOnReset pins) s = .next t
    let pin : Prop := exec (.pinReset pins) s = .next t
    let restart : Prop :=
      pins.trig0 = s.ms.trig0.line ∧ pins.trig1 = s.ms.trig1.line ∧ s.killAsserted = false ∧ s.cl.dispatcher = .restarting none ∧
        (∃ tag rest, s.cl.txQueue = ⟨0x82, tag, [0]⟩ :: rest) ∧ exec .consoleFrameSent s = .next t
    (pins.killN = true ∧ (power ∨ pin) ∨ restart) →
      ((pins.killN = true → power → t.cl.resetCause = .power) ∧ (pins.killN = true → pin → t.cl.resetCause = .pin) ∧
        (restart → t.cl.resetCause = .restart)) ∧
      ((∀ u, t.si.sen.get u = ⟨[], ⟨0, 0, 0, 0, 0, 0, 0, 0⟩, false, 0, none, 0, 0, 0, 0⟩) ∧
        (∀ k, t.si.enc.get k = ⟨[], 0, false, false, 0, 0, 0⟩)) ∧
      (∀ k, (List.range 30).map (t.axis k).active.field =
        [0, 0, 0, 0, -1, 0, (if k = .swing ∨ k = .lift then 4 else 1), 1000, 500, 2000, 0, 4096, 64, -16777216, 16777216, 2048,
         2048, 10, 10, 64, 4096, 400, 20000, 0, 0, 16, 0, 0, 0, 0]) ∧
      (∀ k, t.axis k =
        { mode := .off, t := 0, w := 0, j := 0, f := 0, o := 0, i := 0, uPrev := 0, satFlag := .none, pinState := .none
          satCount := 0, pinCount := 0, coastCount := 0, rdTarget := 0, rdEff := 0, damp := false, killPhase := .clear, jlock := 0
          segment := none, launch := none, swapPending := false, lastEncoder := none, lastMark := none
          active := (t.axis k).active, staged := (t.axis k).active }) ∧
      t.ms =
        { queue := [], phase := .none, running := false, holdKill := false, holdAlert := false, nextSerial := 0, doneList := []
          waypoints := List.replicate 64 ⟨0, ⟨none, none, none, none, none⟩⟩, locks := 0, cues := 0
          cueSources := List.replicate 8 .none
          trig0 := ⟨pins.trig0, pins.trig0, false, 0⟩, trig1 := ⟨pins.trig1, pins.trig1, false, 0⟩ } ∧
      t.sw =
        { running := false, axis := .swing, dlo := 0, dhi := 0, wn := 0, q := 0, savedD := 0, currentD := 0, count := 0, sum := 0
          results := List.replicate 64 0, last := ⟨.none, .swing, 0, none, none, 0⟩ } ∧
      (∀ k, t.dl.get k = ⟨none, none, none, 0, false, 0, none, []⟩) ∧ t.killAsserted = false ∧
      t.le = ⟨0, 0, List.replicate 64 ⟨0, 0, 0⟩, .running, false, true, 0, 0⟩ ∧
      (∀ src, t.source src =
        { level := (match src with | .feedbackStale _ => .two | .driveFault _ => .two | _ => .one), enable := true
          latched := isEvent src, truth := false, pending := false, param := 0 }) ∧
      (t.alc.inService1 = false ∧ t.alc.inService2 = false ∧ t.alc.cause1 = none ∧ t.alc.cause2 = none ∧ t.alc.link1 = none ∧
        t.alc.link2 = none ∧ t.alc.seen1 = false ∧ t.alc.seen2 = false ∧ t.alc.testMask = 0) ∧
      t.cl =
        { rx := .hunt, requests := [], dispatcher := .ready, txQueue := [], silence := .notStarted, silenceElapsed := 0
          counters := ⟨0, 0, 0, 0, 0, 0⟩, planSet := 0, planInterval := 0, setup := ⟨100, ⟨8, 8, 8⟩, 80, 3, true⟩
          resetCause := t.cl.resetCause, resetSeen := true } ∧
      t.ps = { s.ps with latch := false, busy := .idle, busyElapsed := 0, parityFlag := false, lastBad := none }

/-- A reset that ends with KILL_N low, of whichever cause, takes an assertion at once: every axis is STOPPED with phase HALTED, each
link starts a BRAKE word, and the KILL alert is taken at level 1. A RESTART's reset takes the pins as the state holds them (DESIGN CHOICE,
notes/assumptions/8.md and, for PROT_N, 9.md). -/
def Obligations.ResetTakesLowKillLine : Prop :=
  ∀ (pins : Pins) (s : State), pins.killN = false →
    let restart : Prop :=
      s.killAsserted = true ∧ pins.trig0 = s.ms.trig0.line ∧ pins.trig1 = s.ms.trig1.line ∧ pins.protN = s.protHigh ∧
        s.cl.dispatcher = .restarting none ∧ ∃ tag rest, s.cl.txQueue = ⟨0x82, tag, [0]⟩ :: rest
    ∀ (i : Instr) (cause : ResetCause),
      (i = .powerOnReset pins ∧ cause = .power ∨ i = .pinReset pins ∧ cause = .pin ∨
        restart ∧ i = .consoleFrameSent ∧ cause = .restart) →
    ∃ t, exec i s = .next t ∧ t.killAsserted = true ∧ t.ms.holdKill = true ∧ t.cl.resetCause = cause ∧ t.cl.resetSeen = true ∧
      t.ms.trig0 = ⟨pins.trig0, pins.trig0, false, 0⟩ ∧ t.ms.trig1 = ⟨pins.trig1, pins.trig1, false, 0⟩ ∧ t.protHigh = pins.protN ∧
      (∀ k, (t.axis k).mode = .stopped ∧ (t.axis k).killPhase = .halted ∧ (t.axis k).damp = true ∧
        t.dl.get k = ⟨some ⟨.brake, false, 2048⟩, none, some ⟨.brake, false, 2048⟩, 0, false, 0, none, []⟩) ∧
      t.alc.inService1 = true ∧ t.alc.inService2 = false ∧ t.alc.seen1 = true ∧
      t.alc.cause1 = some ⟨.kill, .one, 31, 0, 0⟩ ∧ t.alc.link1 = some ⟨false, false, false, false, false⟩ ∧
      t.cl.txQueue = [⟨0x48, 0, [0, 0, 0, 0, 1, 1, 31, 0, 0]⟩]

/-! ### Sensor Intake -/

/-- The bytes that complete an inertial record: rejected, discarded as a duplicate, or accepted into the slot with the gap counted. -/
def Obligations.InertialRecordIsJudged : Prop :=
  ∀ (u : SenUnit) (bs : List Byte) (s : State), s.le.park ≠ .parked → bs ≠ [] → ((s.si.sen.get u).held ++ bs).length = 20 →
    let p := s.si.sen.get u
    let r := p.held ++ bs
    (crc8 (r.take 19) = byteAt r 19 ∧ byteAt r 0 = 0xB0 ∧ (byteAt r 18).getLsbD 0 = false →
      (p.seqRef ≠ some (byteAt r 1) →
        exec (.inertialSampleRecord u bs) s =
          .next
            ((s.setSen u
              { held := []
                slot :=
                  { yaw := halfAt r 2, pitch := halfAt r 4, roll := halfAt r 6, levelPitch := wordAt r 8, levelRoll := wordAt r 12
                    accel := halfAt r 16, status := byteAt r 18, seq := byteAt r 1 }
                fresh := true
                elapsed := 0
                seqRef := some (byteAt r 1)
                accepted := satInc p.accepted
                rejected := p.rejected
                missed := satAdd p.missed (match p.seqRef with | none => 0 | some q => (byteAt r 1 - q - 1).toNat)
                duplicate := p.duplicate }).settle [])) ∧
      (p.seqRef = some (byteAt r 1) → AtRest s →
        exec (.inertialSampleRecord u bs) s = .next (s.setSen u { p with held := [], duplicate := satInc p.duplicate }))) ∧
    (¬(crc8 (r.take 19) = byteAt r 19 ∧ byteAt r 0 = 0xB0 ∧ (byteAt r 18).getLsbD 0 = false) → AtRest s →
      exec (.inertialSampleRecord u bs) s = .next (s.setSen u { p with held := [], rejected := satInc p.rejected }))

/-- The bytes that complete an encoder record: rejected, or accepted with its position in the slot and the new-position flag set. -/
def Obligations.EncoderRecordIsJudged : Prop :=
  ∀ (k : Axis) (bs : List Byte) (s : State), s.le.park ≠ .parked → bs ≠ [] → ((s.si.enc.get k).held ++ bs).length = 4 →
    let p := s.si.enc.get k
    let r := p.held ++ bs
    (crc8 (r.take 3) = byteAt r 3 ∧ (byteAt r 2).toNat % 16 = 0 →
      exec (.encoderRecord k bs) s =
        .next
          ((s.setEnc k
            { held := []
              position :=
                BitVec.ofNat 20 (((byteAt r 0).toNat * 65536 + (byteAt r 1).toNat * 256 + (byteAt r 2).toNat) / 16)
              newPos := true
              fresh := true
              elapsed := 0
              accepted := satInc p.accepted
              rejected := p.rejected }).settle [])) ∧
    (¬(crc8 (r.take 3) = byteAt r 3 ∧ (byteAt r 2).toNat % 16 = 0) → AtRest s →
      exec (.encoderRecord k bs) s = .next (s.setEnc k { p with held := [], rejected := satInc p.rejected }))

/-- Bytes short of a record are held; while PARKED the sensor ports discard every byte; a silence discards what is held, and the
sensor ports count it. That a silence on a DRV line counts nothing is read from R125, which names no counter (DEDUCED,
notes/assumptions/13.md). -/
def Obligations.PartialRecordsAreHeldAndDiscarded : Prop :=
  ∀ (u : SenUnit) (k : Axis) (bs : List Byte) (s : State),
    let p := s.si.sen.get u
    let e := s.si.enc.get k
    let l := s.dl.get k
    (s.le.park ≠ .parked → (p.held ++ bs).length < 20 →
      exec (.inertialSampleRecord u bs) s = .next (s.setSen u { p with held := p.held ++ bs })) ∧
    (s.le.park ≠ .parked → (e.held ++ bs).length < 4 →
      exec (.encoderRecord k bs) s = .next (s.setEnc k { e with held := e.held ++ bs })) ∧
    ((l.held ++ bs).length < 5 → exec (.driverReport k bs) s = .next (s.setLink k { l with held := l.held ++ bs })) ∧
    (s.le.park = .parked → exec (.inertialSampleRecord u bs) s = .next s ∧ exec (.encoderRecord k bs) s = .next s) ∧
    exec (.partialRecordDiscard (.sen u)) s =
      .next (if p.held = [] then s else s.setSen u { p with held := [], rejected := satInc p.rejected }) ∧
    exec (.partialRecordDiscard (.enc k)) s =
      .next (if e.held = [] then s else s.setEnc k { e with held := [], rejected := satInc e.rejected }) ∧
    exec (.partialRecordDiscard (.drv k)) s = .next (s.setLink k { l with held := [] })

/-- A staleness timer that has reached its unit's limit expires: the port becomes stale and its timer stops. Below the limit, as after an
acceptance taken first, and on a stale port there is no expiry. What each condition presents, which axes and which parameter a source has
when it is taken, and that a taking writes them into the level's cause record; where the manual states no parameter the value is free
(DESIGN CHOICE, notes/assumptions/7.md). From rest, with its source enabled and its level free, BASE's expiry takes BASE_STALE on the axes
that use the feedforward, and an encoder's takes FEEDBACK_STALE on its axis, which goes to SAFE. -/
def Obligations.StalenessExpiryMakesStale : Prop :=
  (∀ (u : SenUnit) (k : Axis) (s : State),
    let limit (v : SenUnit) : Nat := 15625 * s.cl.setup.staleLimit.get v
    let p := s.si.sen.get u
    let e := s.si.enc.get k
    exec (.stalenessExpiry (.sen u)) s =
      .next (if p.fresh = true ∧ limit u ≤ p.elapsed then (s.setSen u { p with fresh := false, elapsed := 0 }).settle [] else s) ∧
    exec (.stalenessExpiry (.enc k)) s =
      .next
        (if e.fresh = true ∧ limit (if k = .swing ∨ k = .lift then .tip else .head) ≤ e.elapsed then
          (s.setEnc k { e with fresh := false, elapsed := 0 }).settle []
        else s)) ∧
  (∀ (s : State) (src : Source),
    let active (k : Axis) : Prop := (s.axis k).mode ∈ [Mode.hold, .rate, .follow, .move]
    let coast (k : Axis) : Prop :=
      (k = .lift ∨ k = .tilt ∨ k = .roll) ∧ active k ∧ (s.axis k).active.coastLimit ≤ (s.axis k).coastCount.toNat
    let forward (k : Axis) : Prop := active k ∧ (s.axis k).active.kf ≠ 0
    let unitStale (k : Axis) : Prop := (s.si.sen.get (if k = .swing ∨ k = .lift then .tip else .head)).fresh = false
    let encStale (k : Axis) : Prop := (s.si.enc.get k).fresh = false
    let held := (s.source src).param
    (conditionTruth s src = true ↔
      match src with
      | .kill => s.killAsserted = true
      | .linkSilent => s.cl.silence = .expired
      | .horizonCoast => ∃ k, coast k
      | .baseStale => s.si.sen.base.fresh = false ∧ ∃ k, forward k
      | .feedbackStale k => (active k ∨ (s.axis k).mode = .safe) ∧ (unitStale k ∨ encStale k)
      | .pinned k => (active k ∨ (s.axis k).mode = .safe) ∧ (s.axis k).active.pinLimit ≤ (s.axis k).pinCount.toNat
      | .saturated k => active k ∧ (s.axis k).active.satLimit ≤ (s.axis k).satCount.toNat
      | _ => False) ∧
    (∀ q, hasAxis (affectedAxes s src) q = true ↔
      match src with
      | .test => hasAxis s.alc.testMask q = true
      | .kill => True
      | .linkSilent => (s.axis q).mode = .rate
      | .horizonCoast => coast q
      | .baseStale => forward q
      | .storeParity => False
      | .feedbackStale k => q = k
      | .pinned k => q = k
      | .saturated k => q = k
      | .driveFault k => q = k) ∧
    (match src with
      | .test => s.causeParam src = (held, s)
      | .kill => s.causeParam src = (0, s)
      | .linkSilent => s.causeParam src = (BitVec.ofNat 16 s.cl.setup.silenceLimit, s)
      | .horizonCoast =>
        (∀ k, coast k → (∀ q, coast q → (s.axis q).coastCount.toNat ≤ (s.axis k).coastCount.toNat) →
          s.causeParam src = ((s.axis k).coastCount, s)) ∧
        ((∀ k, ¬coast k) → s.causeParam src = (Config.freeValue s.freeCount, { s with freeCount := s.freeCount + 1 }))
      | .baseStale => s.causeParam src = (0, s)
      | .storeParity => s.causeParam src = (held, s)
      | .feedbackStale k =>
        (unitStale k → ¬encStale k → s.causeParam src = (1, s)) ∧ (¬unitStale k → encStale k → s.causeParam src = (2, s)) ∧
        (unitStale k → encStale k → s.causeParam src = (3, s)) ∧
        (¬unitStale k → ¬encStale k →
          s.causeParam src = (Config.freeValue s.freeCount, { s with freeCount := s.freeCount + 1 }))
      | .pinned k => s.causeParam src = ((s.axis k).pinCount, s)
      | .saturated k => s.causeParam src = ((s.axis k).satCount, s)
      | .driveFault _ => s.causeParam src = (held, s)) ∧
    (s.take .one src).alc.cause1 = some ⟨src, .one, affectedAxes s src, (s.causeParam src).1, s.le.frameNo⟩ ∧
    (s.take .two src).alc.cause2 = some ⟨src, .two, affectedAxes s src, (s.causeParam src).1, s.le.frameNo⟩) ∧
  (∀ (s : State) (k : Axis), AtRest s → s.alc.inService2 = false →
    let active (q : Axis) : Prop := (s.axis q).mode ∈ [Mode.hold, .rate, .follow, .move]
    let unit : SenUnit := if k = .swing ∨ k = .lift then .tip else .head
    (∀ q, s.si.sen.base.fresh = true → 15625 * s.cl.setup.staleLimit.base ≤ s.si.sen.base.elapsed → active q →
      (s.axis q).active.kf ≠ 0 → (s.source .baseStale).enable = true → (s.source .baseStale).level = .one →
      s.alc.inService1 = false → progress s = false →
      ∃ (t : State) (mask : AxisSet), exec (.stalenessExpiry (.sen .base)) s = .next t ∧
        (∀ x, hasAxis mask x = true ↔ active x ∧ (s.axis x).active.kf ≠ 0) ∧ t.alc.inService1 = true ∧
        t.alc.cause1 = some ⟨.baseStale, .one, mask, 0, s.le.frameNo⟩ ∧ (t.source .baseStale).truth = true ∧
        ∀ x, t.axis x = { s.axis x with damp := (s.axis x).damp || hasAxis mask x }) ∧
    (active k → (s.si.enc.get k).fresh = true → 15625 * s.cl.setup.staleLimit.get unit ≤ (s.si.enc.get k).elapsed →
      (s.si.sen.get unit).fresh = true → (s.source (.feedbackStale k)).enable = true → (s.source (.feedbackStale k)).level = .two →
      sweeping s k = false →
      ∃ t : State, exec (.stalenessExpiry (.enc k)) s = .next t ∧ t.alc.inService2 = true ∧ t.ms.holdAlert = true ∧
        t.alc.cause2 = some ⟨.feedbackStale k, .two, axisSetOf (fun q => q = k), 2, s.le.frameNo⟩ ∧
        (t.source (.feedbackStale k)).truth = true ∧
        t.axis k = { s.axis k with mode := .safe, jlock := (s.axis k).j, segment := none, launch := none } ∧
        ∀ q, q ≠ k → t.axis q = s.axis q))

/-! ### Loop frames -/

/-- A loop frame increments the number, appends BASE's triple to the ring and updates H, and restarts the frame timer. Of the ports it
changes only the new-position flags, which the due axes' computations clear; of the console and the sequencer only what reports, notices
and the head change. The frames it offers are notices and, at a report frame, one report for each kind of the plan in the order AXIS,
SENSOR, QUEUE, each dropped when it finds no place. A loop frame comes when it is commanded (DESIGN CHOICE, notes/assumptions/3.md), and a
stopped frame timer's expiry changes nothing (DEDUCED, notes/assumptions/4.md). -/
def Obligations.LoopFrameAdvances : Prop :=
  ∀ s : State,
    let base := s.si.sen.base
    let frame : Word := s.le.frameNo + 1
    let due (k : Axis) : Bool := decide (frame.toNat % (s.axis k).active.n = 0)
    let planned : List Byte :=
      if s.cl.planInterval ≠ 0 ∧ frame.toNat % s.cl.planInterval = 0 then
        (if s.cl.planSet.getLsbD 0 then [0x40] else []) ++ (if s.cl.planSet.getLsbD 1 then [0x41] else []) ++
          (if s.cl.planSet.getLsbD 2 then [0x42] else [])
      else []
    (s.le.frameTimer = true →
      ∃ (t : State) (added : List Frame), exec .loopFrame s = .next t ∧
        t.le =
          { s.le with
            frameNo := frame
            ring := ((if base.fresh then ⟨base.slot.yaw, base.slot.pitch, base.slot.roll⟩ else ⟨0, 0, 0⟩) :: s.le.ring).take 64
            heading := if base.fresh then s.le.heading + base.slot.yaw.signExtend 32 else s.le.heading
            frameElapsed := 0 } ∧
        t.si.sen = s.si.sen ∧
        (∀ k, t.si.enc.get k = { s.si.enc.get k with newPos := (s.si.enc.get k).newPos && !due k }) ∧
        t.ps = s.ps ∧ t.protHigh = s.protHigh ∧ t.killAsserted = s.killAsserted ∧
        (t.ms.waypoints = s.ms.waypoints ∧ t.ms.locks = s.ms.locks ∧ t.ms.cueSources = s.ms.cueSources ∧
          t.ms.trig0 = s.ms.trig0 ∧ t.ms.trig1 = s.ms.trig1 ∧ t.ms.nextSerial = s.ms.nextSerial ∧
          t.ms.running = s.ms.running ∧ t.ms.holdKill = s.ms.holdKill) ∧
        t.cl =
          { s.cl with
            txQueue := s.cl.txQueue ++ added
            counters := { s.cl.counters with unaskedDrops := t.cl.counters.unaskedDrops } } ∧
        (∀ f ∈ added,
          f.tag = 0 ∧ f.kind ∈ ([0x40, 0x41, 0x42, 0x48, 0x49] : List Byte) ∧ f.payload.take 4 = wordBytes frame) ∧
        (let reports := (added.map Frame.kind).filter (fun c => c.toNat < 0x48)
         reports.Sublist planned ∧
           (s.cl.counters.unaskedDrops.toNat < 65535 → t.cl.counters.unaskedDrops = s.cl.counters.unaskedDrops →
             reports = planned))) ∧
    (s.le.frameTimer = false → exec .loopFrame s = .next s)

/-- A loop frame at which no axis is due changes the number, the ring and H; of the head it takes one from the count of a DWELL or of
a WAIT's timeout while progress is allowed, and the last count retires the entry, DONE or TIMEOUT, with its Done List record, after
which the next entry is taken up. At a report frame of the plan it offers the reports, in the order AXIS, SENSOR, QUEUE, each with
its block's items; the plan makes none when its interval is 0, its set is empty or the number is no multiple. Any axes that are due make
their computations one after another in some order, each under the divisor in force as the frame begins, on the frame's number, ring and
H; with one axis due the frame is its computation. A loop frame comes when it is commanded (DESIGN CHOICE, notes/assumptions/3.md); the
order of the computations and the place of the head's count among the reports are free (notes/assumptions/5.md), and with them the choice
fields. -/
def Obligations.LoopFrameWithNoAxisDue : Prop :=
  (∀ s : State, AtRest s → s.le.frameTimer = true →
    (∀ k, (s.le.frameNo + 1).toNat % (s.axis k).active.n ≠ 0) →
    let frame : Word := s.le.frameNo + 1
    let begun : LoopEngine :=
      { s.le with
        frameNo := frame
        ring := (baseTriple s :: s.le.ring).take 64
        heading := s.le.heading + (baseTriple s).yaw.signExtend 32 }
    let le : LoopEngine := { begun with frameElapsed := 0 }
    let noReport : Prop :=
      s.cl.planInterval = 0 ∨ s.cl.planSet = 0 ∨ frame.toNat % s.cl.planInterval ≠ 0
    let notCounted : Prop :=
      progress s = false ∨ (∀ n, s.ms.phase ≠ .dwelling n) ∧ (∀ n, s.ms.phase ≠ .waitingCue (some n))
    let retired (e : Entry) (rest : List Entry) (outcome : EntryOutcome) : State :=
      { s with
        le := begun
        ms :=
          { s.ms with
            queue := rest
            phase := if rest = [] then .none else .pending
            doneList :=
              (s.ms.doneList ++ [(⟨e.serial, e.tag, e.body.kind, outcome, frame⟩ : DoneRecord)]).drop (s.ms.doneList.length - 7) } }
    (noReport →
      (notCounted → exec .loopFrame s = .next { s with le := le }) ∧
      (∀ n, 2 ≤ n → progress s = true → s.ms.phase = .dwelling n →
        exec .loopFrame s = .next { s with le := le, ms := { s.ms with phase := .dwelling (n - 1) } }) ∧
      (∀ n, 2 ≤ n → progress s = true → s.ms.phase = .waitingCue (some n) →
        exec .loopFrame s = .next { s with le := le, ms := { s.ms with phase := .waitingCue (some (n - 1)) } }) ∧
      (∀ n e rest, n ≤ 1 → progress s = true → s.ms.queue = e :: rest → s.ms.phase = .dwelling n →
        exec .loopFrame s = .next ((retired e rest .done).settle []).restartFrameTimer ∧
        (rest = [] → (retired e rest .done).settle [] = retired e rest .done)) ∧
      (∀ n e rest, n ≤ 1 → progress s = true → s.ms.queue = e :: rest → s.ms.phase = .waitingCue (some n) →
        exec .loopFrame s = .next ((retired e rest .timeout).settle []).restartFrameTimer ∧
        (rest = [] → (retired e rest .timeout).settle [] = retired e rest .timeout))) ∧
    (¬noReport → notCounted →
      let report (c : Byte) (items : List Byte) : Frame := ⟨c, 0, wordBytes frame ++ items⟩
      let reports : List Frame :=
        (if s.cl.planSet.getLsbD 0 then [report 0x40 (allAxes.flatMap (axisRecord s))] else []) ++
          (if s.cl.planSet.getLsbD 1 then [report 0x41 (sensorRecord s)] else []) ++
            (if s.cl.planSet.getLsbD 2 then [report 0x42 (queueRecord s)] else [])
      ∃ schedule freeCount,
        exec .loopFrame s =
          .next (reports.foldl State.offerUnasked { s with le := le, schedule := schedule, freeCount := freeCount }))) ∧
  (∀ s : State, s.le.frameTimer = true →
    exec .loopFrame s = .next { s.takeFrame with le := { s.takeFrame.le with frameElapsed := 0 } }) ∧
  (∀ s : State, AtRest s → progress s = false ∨ s.ms.queue = [] ∧ s.ms.phase = .none →
    let frame : Word := s.le.frameNo + 1
    s.cl.planInterval = 0 ∨ s.cl.planSet = 0 ∨ frame.toNat % s.cl.planInterval ≠ 0 →
    let begun : State :=
      { s with
        le :=
          { s.le with
            frameNo := frame
            ring := (baseTriple s :: s.le.ring).take 64
            heading := s.le.heading + (baseTriple s).yaw.signExtend 32 } }
    let n (k : Axis) : Nat := (s.axis k).active.n
    let after (u : State) (p : Axis × List Nat × Nat) : State :=
      ({ u with schedule := p.2.1, freeCount := p.2.2 } : State).compute p.1 (n p.1)
    ∃ order : List (Axis × List Nat × Nat),
      (order.map Prod.fst).Perm (allAxes.filter (fun k => decide (frame.toNat % n k = 0))) ∧ s.takeFrame = order.foldl after begun)

/-- A computation that is not held, once the kill has settled and any launch and swap are done (HeldComputationBrakes and
SwapTakesStagedRecord bring every computation to this one), whatever the kill phase that stays. The axis record it leaves is the joint
step's and the estimation's (JointStepUnwrapsOrSeeds, LevelAxisEstimation, HeadingAxisEstimation), with the target step
(RateRampNeverPassesDemand, SegmentEvaluation) and the output chain (OutputChainLimitsDemand) upon it in an active mode, with the SAFE
computation (SafeComputationHoldsJoint) in SAFE, and alone in OFF and STOPPED. The word it hands to its drive link goes by the mode:
FREEWHEEL, BRAKE or DRIVE with code 2048 + demand; outside RUNNING a DRIVE is handed as BRAKE. The other axes and links are untouched. Its
mark test compares J before and after the joint step with markAngle in the enabled directions, none being made at a seed: a crossing
writes the frame number as the axis's last mark and sets the MARK cues as one change of the flags, before the computation's alerts; the
alerts come next, then the completion of a segment that ended is recorded, and last its cues are set (their order: DEDUCED,
notes/assumptions/15.md). -/
def Obligations.ComputationHandsItsModesWord : Prop :=
  ∀ (s : State) (k : Axis) (n : Nat),
    (s.axis k).killPhase = .clear ∨
      s.killAsserted = true ∧ ((s.axis k).killPhase = .halted ∨ (s.axis k).killPhase = .paused ∧ isHoldable (s.axis k).mode = false) →
    (s.axis k).launch = none → ¬((s.axis k).swapPending = true ∧ (s.axis k).mode ≠ .move ∧ sweeping s k = false) →
    let c := (s.computeAxis k n).1
    let passed := (s.computeAxis k n).2
    let p := (s.dl.get k).checkMiss s.cl.setup.driverMissLimit
    let q := p.1.countRequest (s.axis k).active.reportEvery
    let brake : DriveWord := ⟨.brake, q.2, 2048⟩
    let drive : DriveWord := ⟨.drive, q.2, BitVec.ofInt 12 (2048 + (c.axis k).uPrev.toInt)⟩
    let r := (s.axis k).active
    let before := (s.axis k).j.toInt
    let after := ((s.jointStep k).axis k).j.toInt
    let crossed : Prop :=
      (s.axis k).lastEncoder ≠ none ∧
        (r.markUp = true ∧ before < r.markAngle ∧ r.markAngle ≤ after ∨
          r.markDown = true ∧ r.markAngle ≤ before ∧ after < r.markAngle)
    ((s.axis k).mode = .off → c.dl.get k = q.1.hand ⟨.freewheel, q.2, 2048⟩) ∧
    ((s.axis k).mode = .stopped → c.dl.get k = q.1.hand brake) ∧
    ((s.axis k).mode = .safe → (s.si.enc.get k).fresh = false → c.dl.get k = q.1.hand brake ∧ (c.axis k).uPrev = 0) ∧
    (isActive (s.axis k).mode = true ∨ (s.axis k).mode = .safe ∧ (s.si.enc.get k).fresh = true →
      c.dl.get k = q.1.hand (if s.le.park = .running then drive else brake)) ∧
    (∀ j, j ≠ k → c.dl.get j = s.dl.get j ∧ c.axis j = s.axis j) ∧
    (passed.marked = true ↔ crossed) ∧ (passed.missed = true ↔ p.2 = true) ∧
    (crossed → (c.axis k).lastMark = some s.le.frameNo) ∧ (¬crossed → (c.axis k).lastMark = (s.axis k).lastMark) ∧
    (let e : State := s.estimate k n
     let x := e.axis k
     let b := c.axis k
     let g := gyroTerm s k
     let kept (y : AxisRec) : AxisRec := { y with lastMark := b.lastMark, active := b.active, staged := b.staged }
     let p := targetRule k x n
     e = (s.jointStep k).estimate k n ∧ ((s.jointStep k).si.enc.get k).newPos = false ∧ c.si = e.si ∧ c.le = s.le ∧ c.ms = s.ms ∧
     (sweeping s k = false → b.active = (s.axis k).active ∧ b.staged = (s.axis k).staged) ∧
     ((s.axis k).mode = .off ∨ (s.axis k).mode = .stopped → b = kept x ∧ passed.ended = none) ∧
     ((s.axis k).mode = .safe →
       b = kept (modeWork e k g n false).axis ∧ passed.ended = none ∧ (e.axis k).mode = .safe) ∧
     (isActive (s.axis k).mode = true →
       b = kept (outputChain s.le.ring k p.1 g (targetRate x.t p.1.t n)) ∧ passed.ended = p.2)) ∧
    (∀ (t : State) (v : Passed),
      let alerts : State := t.settle (v.rose.map Due.condition ++ if v.missed then [.raised (.driveFault k) 2] else [])
      t.handOver k { v with marked := true } =
        (t.changeCues (t.ms.cues ||| cuesOf t.ms.cueSources (.mark k))).handOver k { v with marked := false } ∧
      (v.marked = false → v.ended = none → t.handOver k v = alerts) ∧
      (∀ serial, v.marked = false → v.ended = some serial →
        let recorded : State := (alerts.reportSegment k serial false).settle []
        t.handOver k v =
          (recorded.changeCues (recorded.ms.cues ||| cuesOf recorded.ms.cueSources (.segmentDone k))).settle [])) ∧
    s.compute k n = c.handOver k passed

/-- With reportEvery = m and the counter at 0, the request goes with the m-th computation and the counter is back at 0; an
outstanding request found at a computation is a miss, and the miss that reaches the limit raises. -/
def Obligations.ReportRequestsAndMisses : Prop :=
  ∀ (l : DriveLink) (every limit : Nat),
    (1 ≤ every → l.requestCount = 0 →
      let count (x : DriveLink) : DriveLink := (x.countRequest every).1
      (∀ j, j + 1 < every → ((count^[j] l).countRequest every).2 = false) ∧
      ((count^[every - 1] l).countRequest every).2 = true ∧ count^[every] l = l) ∧
    (l.countRequest 0 = ({ l with requestCount := 0 }, false)) ∧
    (l.outstanding = false → l.checkMiss limit = (l, false)) ∧
    (l.outstanding = true → l.missCount + 1 < limit →
      l.checkMiss limit = ({ l with outstanding := false, missCount := l.missCount + 1 }, false)) ∧
    (l.outstanding = true → limit ≤ l.missCount + 1 →
      l.checkMiss limit = ({ l with outstanding := false, missCount := 0 }, true))

/-- A computation held by the kill PAUSE effect, no swap being made (SwapTakesStagedRecord brings the one with a swap to it): a pending
launch is dropped and reported as aborted; the axis record is that of the estimation, coastCount included (JointStepUnwrapsOrSeeds,
LevelAxisEstimation, HeadingAxisEstimation), with T at W, so that the output side and the rates stay; the mark test is made as at any
computation; the link is handed BRAKE, a sweep counts nothing, no segment ends, and what it brings about is handed over
(ComputationHandsItsModesWord). Every computation first settles the kill: an axis in AWAITING acts, HALT bringing it to STOPPED
and PAUSE keeping its mode (MOVE becomes HOLD), its segment and launch reported as aborted and a sweep ended by HALT; with the line released
the phase becomes CLEAR, and a PAUSED axis in HOLD, RATE or FOLLOW resumes, its target taken at W; with the line asserted HALTED and PAUSED
stay. Then, on an axis not held, the pending launch is installed: into MOVE, ending a sweep on an axis in HOLD, over the segment of an axis
in MOVE, which is reported as aborted, or, in OFF, STOPPED and SAFE as on a held axis, dropped and reported. The computation is then that of
the state so left. -/
def Obligations.HeldComputationBrakes : Prop :=
  (∀ (s : State) (k : Axis) (n : Nat), s.killAsserted = true → (s.axis k).killPhase = .paused → isHoldable (s.axis k).mode = true →
    ¬((s.axis k).swapPending = true ∧ sweeping s k = false) →
    let c := (s.computeAxis k n).1
    let a := s.axis k
    let b := c.axis k
    let p := (s.dl.get k).checkMiss s.cl.setup.driverMissLimit
    let q := p.1.countRequest a.active.reportEvery
    b.mode = a.mode ∧ b.killPhase = .paused ∧ b.launch = none ∧ b.t = b.w ∧ b.i = a.i ∧ b.uPrev = a.uPrev ∧
    b.rdEff = a.rdEff ∧ b.rdTarget = a.rdTarget ∧ b.o = a.o ∧ b.satFlag = a.satFlag ∧ b.pinState = a.pinState ∧
    b.satCount = a.satCount ∧ b.pinCount = a.pinCount ∧ c.sw = s.sw ∧
    c.dl.get k = q.1.hand ⟨.brake, q.2, 2048⟩ ∧
    (let e : State := s.estimate k n
     let passed := (s.computeAxis k n).2
     let before := a.j.toInt
     let after := ((s.jointStep k).axis k).j.toInt
     let crossed : Prop :=
       a.lastEncoder ≠ none ∧
         (a.active.markUp = true ∧ before < a.active.markAngle ∧ a.active.markAngle ≤ after ∨
           a.active.markDown = true ∧ a.active.markAngle ≤ before ∧ after < a.active.markAngle)
     e = (s.jointStep k).estimate k n ∧ ((s.jointStep k).si.enc.get k).newPos = false ∧
     b = { e.axis k with t := (e.axis k).w, launch := none, lastMark := b.lastMark } ∧
     c.si = e.si ∧ c.le = s.le ∧ c.cl = s.cl ∧ (a.launch = none → c.ms = s.ms) ∧
     (∀ g, a.launch = some g → c.ms = (s.reportSegment k g.serial true).ms) ∧
     (∀ j, j ≠ k → c.dl.get j = s.dl.get j ∧ c.axis j = s.axis j) ∧
     (passed.marked = true ↔ crossed) ∧ (crossed → b.lastMark = some s.le.frameNo) ∧ (¬crossed → b.lastMark = a.lastMark) ∧
     (passed.missed = true ↔ p.2 = true) ∧ passed.ended = none ∧ s.compute k n = c.handOver k passed)) ∧
  (∀ (s : State) (k : Axis),
    let a := s.axis k
    let swept : Bool := sweeping s k
    let restored : AxisRec := if swept then { a with active := { a.active with d := s.sw.savedD } } else a
    let left (y : AxisRec) (serials : List (Option Half)) : State :=
      (serials.filterMap id).foldl (fun u serial => u.reportSegment k serial true) (s.setAxis k y)
    let sweepEnded (u : State) : State :=
      if swept then
        ({ u with sw := { s.sw with running := false, last := ⟨.aborted, k, s.sw.savedD, none, none, s.le.frameNo⟩ } } :
            State).offerUnasked
          ⟨0x49, 0, wordBytes s.le.frameNo ++ [1, byteOf (axisIndex k), 4, byteOf s.sw.savedD]⟩
      else u
    let held : List (Option Half) := [a.segment.map Segment.serial, a.launch.map Segment.serial]
    let cleared (x : AxisRec) : AxisRec :=
      if x.mode = .hold ∨ x.mode = .rate ∨ x.mode = .follow then
        { x with
          killPhase := .clear, t := x.w, i := 0, uPrev := 0, rdEff := 0, rdTarget := 0, satFlag := .none, pinState := .none
          satCount := 0, pinCount := 0, coastCount := 0, o := if x.mode = .follow then x.w - x.f else x.o }
      else { x with killPhase := .clear }
    (a.killPhase = .clear ∨ a.killPhase ≠ .awaiting ∧ s.killAsserted = true → s.settleKill k = s) ∧
    (s.killAsserted = false → a.killPhase = .halted → s.settleKill k = s.setAxis k { a with killPhase := .clear }) ∧
    (s.killAsserted = false → a.killPhase = .paused → s.settleKill k = s.setAxis k (cleared a)) ∧
    (a.killPhase = .awaiting → a.active.killEffect = .halt →
      s.settleKill k =
        sweepEnded
          (left
            { restored with
              mode := .stopped, segment := none, launch := none, killPhase := if s.killAsserted then .halted else .clear }
            held)) ∧
    (a.killPhase = .awaiting → a.active.killEffect = .pause →
      let paused : AxisRec :=
        { a with mode := if a.mode = .move then .hold else a.mode, segment := none, launch := none, killPhase := .paused }
      s.settleKill k = left (if s.killAsserted then paused else cleared paused) held) ∧
    (a.launch = none → s.installLaunch k = s ∧ s.discardLaunch k = s) ∧
    (∀ g, a.launch = some g →
      let moved (x : AxisRec) : AxisRec := { x with mode := .move, segment := some g, launch := none }
      let dropped : State := left { a with launch := none } [some g.serial]
      s.discardLaunch k = dropped ∧
      (a.mode = .hold → s.installLaunch k = sweepEnded (s.setAxis k (moved restored))) ∧
      (a.mode = .rate ∨ a.mode = .follow → s.installLaunch k = s.setAxis k (moved a)) ∧
      (a.mode = .move → s.installLaunch k = left (moved a) [a.segment.map Segment.serial]) ∧
      (a.mode = .off ∨ a.mode = .stopped ∨ a.mode = .safe → s.installLaunch k = dropped)) ∧
    (∀ n,
      let u := s.settleKill k
      let v : State :=
        if u.killAsserted && decide ((u.axis k).killPhase = .paused) && isHoldable (u.axis k).mode then u.discardLaunch k
        else u.installLaunch k
      s.compute k n = v.compute k n ∧ s.computeAxis k n = v.computeAxis k n ∧ (v.axis k).launch = none ∧
        v.killAsserted = s.killAsserted ∧
        ((v.axis k).killPhase = .clear ∨
          s.killAsserted = true ∧ ((v.axis k).killPhase = .halted ∨ (v.axis k).killPhase = .paused))))

/-- The swap check makes the staged record active when a swap is pending, the axis is not in MOVE and no sweep runs on it, and
brings I, uPrev and the rates into the new bounds; otherwise it changes nothing. A computation with the kill settled and no launch left is
that of the axis as the swap check leaves it. The conditions are judged there, the counts not yet rewritten; a condition that rises there
makes a LATCHED source pending whatever the computation then does to its truth. -/
def Obligations.SwapTakesStagedRecord : Prop :=
  ∀ (s : State) (k : Axis), (s.axis k).staged.ok = true →
    let a := s.axis k
    let b := (s.swapCheck k).axis k
    (a.swapPending = true → a.mode ≠ .move → sweeping s k = false →
      b = { a with active := a.staged, swapPending := false, i := b.i, uPrev := b.uPrev, rdEff := b.rdEff, rdTarget := b.rdTarget } ∧
      b.i.toInt = max (-(a.staged.imax : Int)) (min a.staged.imax a.i.toInt) ∧
      b.uPrev.toInt = max (-(a.staged.umax : Int)) (min a.staged.umax a.uPrev.toInt) ∧
      b.rdEff.toInt = max (-(a.staged.rmax : Int)) (min a.staged.rmax a.rdEff.toInt) ∧
      b.rdTarget.toInt = max (-(a.staged.rmax : Int)) (min a.staged.rmax a.rdTarget.toInt) ∧
      s.swapCheck k = s.setAxis k b) ∧
    (¬(a.swapPending = true ∧ a.mode ≠ .move ∧ sweeping s k = false) → s.swapCheck k = s) ∧
    (a.killPhase = .clear ∨ s.killAsserted = true ∧ a.killPhase ≠ .awaiting → a.launch = none → ∀ n,
      s.computeAxis k n = (s.swapCheck k).computeAxis k n ∧
      ∀ src, src ∈ (s.computeAxis k n).2.rose ↔ conditionTruth (s.swapCheck k) src = true ∧ (s.source src).truth = false) ∧
    (∀ src, AtRest s → (s.source src).latched = true → (s.source src).enable = false →
      s.settle [.condition src] = s.setSource src { s.source src with pending := true })

/-! ### The hold law -/

/-- The joint step: a new position is unwrapped by the shorter way, the joint angle saturating, or seeds J within the half turn
either side of zero; the flag is cleared. Without a new position nothing changes. -/
def Obligations.JointStepUnwrapsOrSeeds : Prop :=
  ∀ (s : State) (k : Axis),
    let e := s.si.enc.get k
    let a := s.axis k
    let t := s.jointStep k
    let b := t.axis k
    (e.newPos = false → t = s) ∧
    (e.newPos = true →
      t = (s.setEnc k { e with newPos := false }).setAxis k { a with j := b.j, lastEncoder := some e.position } ∧
      (∀ last, a.lastEncoder = some last →
        ∃ d : Int, -524288 ≤ d ∧ d ≤ 524287 ∧ ((e.position.toNat : Int) - last.toNat - d) % 1048576 = 0 ∧
          b.j.toInt = max (-2147483648) (min 2147483647 (a.j.toInt + 16 * d))) ∧
      (a.lastEncoder = none →
        b.j.toInt = if e.position.toNat ≤ 524287 then 16 * (e.position.toNat : Int) else 16 * (e.position.toNat : Int) - 16777216))

/-- The gyro term is the bias-corrected rate within ±32767, or 0 from a stale unit; W is integrated by N times it. The gravity reference is
valid while the unit is fresh and its accel magnitude lies within gravBand of 1000 mg, at both ends inclusive. On a level axis a valid
reference is taken whole in OFF and STOPPED and otherwise pulls W by 1/2^c of the gap, truncated, or by levelCap where that is less, and
never past it; an invalid one leaves W and counts the coast of an active axis. -/
def Obligations.LevelAxisEstimation : Prop :=
  ∀ (s : State) (k : Axis) (n : Nat), isHeading k = false → (s.si.enc.get k).newPos = false → (s.axis k).active.ok = true →
    let u := s.si.sen.get (if k = .lift then .tip else .head)
    let a := s.axis k
    let b := (s.estimate k n).axis k
    let g := gyroTerm s k
    let rate : Half := if k = .roll then u.slot.roll else u.slot.pitch
    let w : Word := if u.fresh then a.w + BitVec.ofInt 32 (n * g) else a.w
    let gref : Word := if k = .roll then u.slot.levelRoll else u.slot.levelPitch
    let band := s.cl.setup.gravBand
    let valid : Prop := u.fresh = true ∧ 1000 ≤ u.slot.accel.toNat + band ∧ u.slot.accel.toNat ≤ 1000 + band
    (u.fresh = true → g = max (-32767) (min 32767 (rate.toInt - a.active.gyroBias))) ∧
    (u.fresh = false → g = 0) ∧
    (gravityValid s (if k = .lift then .tip else .head) = true ↔ valid) ∧ gravityValid s .base = false ∧
    (valid →
      (a.mode = .off ∨ a.mode = .stopped → b = { a with w := gref }) ∧
      (a.mode ≠ .off → a.mode ≠ .stopped →
        b = { a with w := b.w, coastCount := 0 } ∧
        (wrapDiff b.w w).natAbs ≤ a.active.levelCap ∧
        (wrapDiff b.w w).natAbs * 2 ^ a.active.levelShift ≤ (wrapDiff gref w).natAbs ∧
        0 ≤ wrapDiff b.w w * wrapDiff gref w ∧
        ((wrapDiff gref w).natAbs < a.active.levelCap * 2 ^ a.active.levelShift →
          wrapDiff b.w w = (wrapDiff gref w).tdiv (2 ^ a.active.levelShift)) ∧
        (a.active.levelCap * 2 ^ a.active.levelShift ≤ (wrapDiff gref w).natAbs →
          wrapDiff b.w w = if 0 < wrapDiff gref w then (a.active.levelCap : Int) else -(a.active.levelCap : Int)))) ∧
    (¬valid →
      (isActive a.mode = true → b = { a with w := w, coastCount := satInc a.coastCount }) ∧
      (isActive a.mode = false → b = { a with w := w }))

/-- The gyro term of a heading axis is the bias-corrected yaw rate of its unit within ±32767, or 0 from a stale unit. F closes 1/2^k of its
gap to H, truncated, and never passes H; in OFF and STOPPED W is H plus the joint sum, and otherwise W is carried by the gyro alone. -/
def Obligations.HeadingAxisEstimation : Prop :=
  ∀ (s : State) (k : Axis) (n : Nat), isHeading k = true → (s.si.enc.get k).newPos = false → (s.axis k).active.ok = true →
    let u := s.si.sen.get (if k = .swing then .tip else .head)
    let a := s.axis k
    let b := (s.estimate k n).axis k
    let g := gyroTerm s k
    let w : Word := if u.fresh then a.w + BitVec.ofInt 32 (n * g) else a.w
    let sum : Int := if k = .pan then (s.axis .swing).j.toInt + a.j.toInt else a.j.toInt
    g = (if u.fresh then max (-32767) (min 32767 (u.slot.yaw.toInt - a.active.gyroBias)) else 0) ∧
    b = { a with f := b.f, w := b.w } ∧
    wrapDiff s.le.heading b.f = wrapDiff s.le.heading a.f - (wrapDiff s.le.heading a.f).tdiv (2 ^ a.active.followShift) ∧
    (wrapDiff s.le.heading b.f).natAbs ≤ (wrapDiff s.le.heading a.f).natAbs ∧
    b.w = if a.mode = .off ∨ a.mode = .stopped then s.le.heading + BitVec.ofInt 32 sum else w

/-- The target step outside MOVE (for MOVE, SegmentEvaluation). In RATE the effective rate moves toward the demanded one by at most
Amax and never passes it, T moves by N times it, and the rate formed from T is that rate exactly. In HOLD neither T nor anything else of
the record is written, and the rate is 0. In FOLLOW T is F + O, wrapping, and nothing else of the record is written, O included. In every
mode the target rate is the wrap difference of T across the step divided by N, truncated toward zero and limited to ±32767. -/
def Obligations.RateRampNeverPassesDemand : Prop :=
  (∀ (k : Axis) (a : AxisRec) (n : Nat), a.mode = .rate → AxisInRange a → n = 1 ∨ n = 2 ∨ n = 4 ∨ n = 8 →
    let b := (targetRule k a n).1
    (targetRule k a n).2 = none ∧
    b = { a with rdEff := b.rdEff, t := a.t + BitVec.ofInt 32 (n * b.rdEff.toInt) } ∧
    (b.rdEff.toInt - a.rdEff.toInt).natAbs ≤ a.active.amax ∧
    min a.rdEff.toInt a.rdTarget.toInt ≤ b.rdEff.toInt ∧ b.rdEff.toInt ≤ max a.rdEff.toInt a.rdTarget.toInt ∧
    ((a.rdTarget.toInt - a.rdEff.toInt).natAbs ≤ a.active.amax → b.rdEff = a.rdTarget) ∧
    ((a.active.amax : Int) ≤ (a.rdTarget.toInt - a.rdEff.toInt).natAbs →
      (b.rdEff.toInt - a.rdEff.toInt).natAbs = a.active.amax) ∧
    b.rdEff.toInt.natAbs ≤ a.active.rmax ∧ targetRate a.t b.t n = b.rdEff.toInt) ∧
  (∀ (k : Axis) (a : AxisRec) (n : Nat),
    (a.mode = .hold → targetRule k a n = (a, none) ∧ targetRate a.t (targetRule k a n).1.t n = 0) ∧
    (a.mode = .follow → targetRule k a n = ({ a with t := a.f + a.o }, none))) ∧
  (∀ (before after : Word) (n : Nat), 1 ≤ n →
    let change := (after - before).toInt
    let rate := targetRate before after n
    rate.natAbs = min 32767 (change.natAbs / n) ∧ (0 < rate → 0 < change) ∧ (rate < 0 → change < 0))

/-- In MOVE the segment advances by N, its weight (32,768 at the midpoint) and offset are those of R85, the offset lies between S0 and S1
and is S1 at the end, and T is the offset on the follow reference (heading) or alone (level); at the end the axis leaves MOVE for its
endMode. -/
def Obligations.SegmentEvaluation : Prop :=
  ∀ (k : Axis) (a : AxisRec) (n : Nat) (g : Segment), a.mode = .move → a.segment = some g → 1 ≤ n →
    1 ≤ g.dn → g.dn ≤ 1048576 → g.k ≤ g.dn →
    let h : Segment := { g with k := min (g.k + n) g.dn }
    let p := h.k * 65536 / h.dn
    let w := match h.shape with
      | .linear => p
      | .eased => (3 * p ^ 2 * 65536 - 2 * p ^ 3) / 2 ^ 32
    let offset := segmentOffset h
    let r := targetRule k a n
    let t : Word := (if isHeading k then a.f else 0) + BitVec.ofInt 32 offset
    p ≤ 65536 ∧ w ≤ 65536 ∧ (2 * h.k = g.dn → w = 32768) ∧ offset = h.s0.toInt + ((h.s1.toInt - h.s0.toInt) * w).tdiv 65536 ∧
    min g.s0.toInt g.s1.toInt ≤ offset ∧ offset ≤ max g.s0.toInt g.s1.toInt ∧
    (h.k < g.dn → r = ({ a with t := t, segment := some h }, none)) ∧
    (h.k = g.dn →
      offset = g.s1.toInt ∧
      (g.endMode = .follow → isHeading k = true →
        r = ({ a with t := t, o := g.s1, mode := .follow, segment := none }, some g.serial)) ∧
      (¬(g.endMode = .follow ∧ isHeading k = true) → r = ({ a with t := t, mode := .hold, segment := none }, some g.serial)))

/-- The output chain: the sum rounded to nearest, the integrator's anti-windup and clamp, saturation judged before the clamp, the
demand clamped to the limit in effect, to the slew window about the last demand and to the limit again, and the pin step's stop at the
joint limits, HIGH or LOW. -/
def Obligations.OutputChainLimitsDemand : Prop :=
  ∀ (ring : List Triple) (k : Axis) (a : AxisRec) (g rd : Int), AxisInRange a → g.natAbs ≤ 32767 → rd.natAbs ≤ 32767 →
    let b := outputChain ring k a g rd
    let r := a.active
    let e := max (-4194304) (min 4194304 (wrapDiff a.t a.w))
    let raw := r.kp * e + r.ki * b.i.toInt + 256 * r.kr * (rd - g) +
      256 * r.kf * (r.ffSign * baseComponent k (ring.getD r.d ⟨0, 0, 0⟩))
    let limit : Int := if a.damp then r.udamp else r.umax
    let blocked := (0 < e ∧ (a.satFlag = .high ∨ a.pinState = .high)) ∨ (e < 0 ∧ (a.satFlag = .low ∨ a.pinState = .low))
    let within (x lo hi : Int) : Int := max lo (min x hi)
    ∃ u1 : Int, let u2 := within u1 (-limit) limit
      let u3 := within (within u2 (a.uPrev.toInt - r.l) (a.uPrev.toInt + r.l)) (-limit) limit
      (b.pinState = if r.jmax ≤ a.j.toInt ∧ 0 < u3 then .high else if a.j.toInt ≤ r.jmin ∧ u3 < 0 then .low else .none) ∧
      b.uPrev.toInt = (if b.pinState = .none then u3 else 0) ∧ raw - 524288 < u1 * 1048576 ∧ u1 * 1048576 ≤ raw + 524288 ∧
      (blocked → b.i = a.i) ∧
      (¬blocked → b.i.toInt = max (-(r.imax : Int)) (min r.imax (a.i.toInt + e))) ∧
      (b.satFlag = if limit < u1 then .high else if u1 < -limit then .low else .none) ∧
      b.satCount = (if b.satFlag = .none then 0 else satInc a.satCount) ∧
      b.pinCount = (if b.pinState = .none then 0 else satInc a.pinCount) ∧
      b.uPrev.toInt.natAbs ≤ limit ∧
      (b.pinState = .none → a.uPrev.toInt.natAbs ≤ limit → (b.uPrev.toInt - a.uPrev.toInt).natAbs ≤ r.l) ∧
      (b.pinState = .none → u1.natAbs ≤ limit → (u1 - a.uPrev.toInt).natAbs ≤ r.l → b.uPrev.toInt = u1) ∧
      (b.pinState ≠ .none → b.uPrev = 0) ∧
      (r.jmax ≤ a.j.toInt → b.uPrev.toInt ≤ 0) ∧ (a.j.toInt ≤ r.jmin → 0 ≤ b.uPrev.toInt) ∧
      (r.jmin < a.j.toInt → a.j.toInt < r.jmax → b.pinState = .none) ∧
      b = { a with
        i := b.i, satFlag := b.satFlag, satCount := b.satCount, pinState := b.pinState, pinCount := b.pinCount, uPrev := b.uPrev }

/-- The SAFE computation drives toward Jlock within ±Usafe while the encoder is fresh, and brakes with everything at 0 while it is
stale; T, W, I and the rates are not written. -/
def Obligations.SafeComputationHoldsJoint : Prop :=
  ∀ (s : State) (k : Axis) (g : Int) (n : Nat), (s.axis k).mode = .safe → AxisInRange (s.axis k) →
    let a := s.axis k
    let m := modeWork s k g n false
    let b := m.axis
    let e := max (-4194304) (min 4194304 (a.jlock.toInt - a.j.toInt))
    let u := max (-(a.active.usafe : Int)) (min a.active.usafe ((a.active.ks * e + 524288) / 1048576))
    m.ended = none ∧
    ((s.si.enc.get k).fresh = true →
      m.command = .drive ∧
      (b.pinState = if a.active.jmax ≤ a.j.toInt ∧ 0 < u then .high else if a.j.toInt ≤ a.active.jmin ∧ u < 0 then .low else .none) ∧
      b.pinCount = (if b.pinState = .none then 0 else satInc a.pinCount) ∧
      b.uPrev.toInt = (if b.pinState = .none then u else 0) ∧
      b = { a with pinState := b.pinState, pinCount := b.pinCount, uPrev := b.uPrev, satFlag := .none, satCount := 0 }) ∧
    ((s.si.enc.get k).fresh = false →
      m.command = .brake ∧ b = { a with uPrev := 0, pinState := .none, pinCount := 0, satFlag := .none, satCount := 0 })

/-! ### Drive links and the kill line -/

/-- While PARKED or UNPARKING no DRIVE word waits on a link, and every word that starts there is BRAKE or FREEWHEEL: a DRIVE word on the
line after a step was on it before, and its end has not come. Every step keeps this. -/
def Obligations.NoDriveOutsideRunning : Prop :=
  ∀ s t : State, DriveHeldBack s → step s = .next t →
    DriveHeldBack t ∧
    (s.le.park ≠ .running → t.le.park ≠ .running → ∀ k,
      (∀ w, (t.dl.get k).sending = some w → w.command = .drive →
        (s.dl.get k).sending = some w ∧ ∀ rest, s.pending ≠ .driveWordSent k :: rest) ∧
      ((t.dl.get k).lastWord = (s.dl.get k).lastWord ∨
        ∃ w, (t.dl.get k).lastWord = some w ∧ w.command ≠ .drive))

/-- A drive link's words and reports. A word handed to an IDLE transmitter starts at once: it becomes the last word sent, and its report
request, if set, makes a report outstanding; while SENDING it takes the waiting slot, in place of any word there, and nothing else changes.
When a word's last byte has gone out the waiting word starts, or the transmitter becomes IDLE; a word's end on
an IDLE transmitter changes nothing (DEDUCED, notes/assumptions/4.md). A good report is kept, its status byte whole (DEDUCED,
notes/assumptions/20.md), settles the request, ends the run of misses and raises on its fault bit; a bad one is discarded. -/
def Obligations.DriveLinkEvents : Prop :=
  ∀ (k : Axis) (bs : List Byte) (s : State),
    let l := s.dl.get k
    let r := l.held ++ bs
    (∀ w,
      (l.sending = none →
        l.hand w = { l with sending := some w, lastWord := some w, outstanding := l.outstanding || w.request }) ∧
      (∀ v, l.sending = some v → l.hand w = { l with waiting := some w })) ∧
    (l.sending = none → exec (.driveWordSent k) s = .next s) ∧
    (∀ v, l.sending = some v → l.waiting = none → exec (.driveWordSent k) s = .next (s.setLink k { l with sending := none })) ∧
    (∀ v w, l.sending = some v → l.waiting = some w →
      exec (.driveWordSent k) s =
        .next
          (s.setLink k
            { l with sending := some w, waiting := none, lastWord := some w, outstanding := l.outstanding || w.request })) ∧
    (bs ≠ [] → r.length = 5 → crc8 (r.take 4) = byteAt r 4 →
      exec (.driverReport k bs) s =
        .next
          ((s.setLink k
            { l with
              held := []
              lastReport := some ⟨halfAt r 0, byteAt r 2, byteAt r 3, s.le.frameNo⟩
              outstanding := false
              missCount := 0 }).settle
            (if (byteAt r 3).getLsbD 0 then [.raised (.driveFault k) 1] else []))) ∧
    (bs ≠ [] → r.length = 5 → crc8 (r.take 4) ≠ byteAt r 4 →
      exec (.driverReport k bs) s = .next (s.setLink k { l with held := [] }))

/-- A kill assertion holds the queue, sets the KILL cues and treats each axis by its timing and effect; a release lets the
condition and the hold go. The hold stands before the axes act, so that the queue and the Done List stay (DEDUCED,
notes/assumptions/6.md); an edge to the level already held is none (DEDUCED, notes/assumptions/4.md). -/
def Obligations.KillLineEdges : Prop :=
  ∀ s : State,
    (s.killAsserted = false →
      ∃ t, exec .killAssertion s = .next t ∧ t.killAsserted = true ∧ t.ms.holdKill = true ∧
        (s.ms.cues ||| cuesOf s.ms.cueSources .kill) &&& ~~~t.ms.cues = 0 ∧
        t.si = s.si ∧ t.le = s.le ∧ t.ps = s.ps ∧ t.ms.queue.length = s.ms.queue.length ∧ t.ms.doneList = s.ms.doneList ∧
        ∀ k,
          let a := s.axis k
          let b := t.axis k
          (a.active.killTiming = .immediate →
            b.segment = none ∧ b.launch = none ∧ t.dl.get k = (s.dl.get k).hand ⟨.brake, false, 2048⟩ ∧
            (a.active.killEffect = .halt → b.mode = .stopped ∧ b.killPhase = .halted) ∧
            (a.active.killEffect = .pause →
              b.killPhase = .paused ∧ (b.mode = (if a.mode = .move then .hold else a.mode) ∨ b.mode = .safe))) ∧
          (a.active.killTiming = .next →
            t.dl.get k = s.dl.get k ∧ (b.mode = a.mode ∨ b.mode = .safe) ∧
            b.killPhase = (if a.killPhase = .clear ∨ a.killPhase = .halted then .awaiting else a.killPhase))) ∧
    (s.killAsserted = true →
      exec .killAssertion s = .next s ∧
      exec .killRelease s =
        .next ((({ s with killAsserted := false, ms := { s.ms with holdKill := false } } : State)).settle [])) ∧
    (s.killAsserted = false → exec .killRelease s = .next s)

/-! ### Trigger lines -/

/-- A trigger line's changes and its hold-off's expiry: an edge is taken when the hold-off is IDLE and the level differs from the
accepted one; it starts the hold-off, and a rising edge sets the line's cues in one change, tested against the head at once
(`changeCues`: CueWritesTableAndFlags). The expiry comes when it is commanded: the model's choice (notes/assumptions/3.md). A change to
the level the line already has, and the expiry of an IDLE hold-off, change nothing (DEDUCED, notes/assumptions/4.md). A change of
PROT_N comes in the same row and is taken up in the level alone (DESIGN CHOICE, notes/assumptions/9.md). -/
def Obligations.TriggerLineEdges : Prop :=
  ∀ (line : TrigLine) (high : Bool) (s : State),
    let q := s.trig line
    let raised (t : State) : State := t.changeCues (t.ms.cues ||| cuesOf t.ms.cueSources (.trigger line))
    let edge (level : Bool) : State :=
      if level then (raised (s.setTrig line ⟨true, true, true, 0⟩)).settle [] else s.setTrig line ⟨false, false, true, 0⟩
    exec (.triggerLineChange .protN high) s = .next { s with protHigh := high } ∧
    (q.line ≠ high → q.holdOff = false → q.accepted ≠ high → exec (.triggerLineChange (.trig line) high) s = .next (edge high)) ∧
    (q.line ≠ high → q.holdOff = true ∨ q.accepted = high →
      exec (.triggerLineChange (.trig line) high) s = .next (s.setTrig line { q with line := high })) ∧
    (q.line = high → exec (.triggerLineChange (.trig line) high) s = .next s) ∧
    (q.holdOff = true → q.line = q.accepted →
      exec (.holdOffExpiry line) s = .next (s.setTrig line { q with holdOff := false, elapsed := 0 })) ∧
    (q.holdOff = true → q.line ≠ q.accepted → exec (.holdOffExpiry line) s = .next (edge q.line)) ∧
    (q.holdOff = false → exec (.holdOffExpiry line) s = .next s)

/-! ### The Console Link -/

/-- A good frame restarts the silence timer; while the dispatcher does not take it, it is admitted when fewer than 4 frames wait and
no RESTART is pending, and otherwise dropped as an overrun. -/
def Obligations.GoodFrameIsAdmittedOrDropped : Prop :=
  ∀ (kind tag : Byte) (payload : List Byte) (s : State), s.cl.rx = .hunt → payload.length ≤ 1024 →
    let a := ({ s with cl := { s.cl with silence := .running, silenceElapsed := 0 } } : State).settle []
    let c := a.cl.counters
    let taken : State :=
      { a with
        cl :=
          { a.cl with
            requests := s.cl.requests ++ [⟨kind, tag, payload⟩], counters := { c with admitted := satInc c.admitted } } }
    let drop : State := { a with cl := { a.cl with counters := { c with overruns := satInc c.overruns } } }
    (∀ r, s.cl.dispatcher = .replyWaiting r → s.cl.requests.length < 4 → exec (.goodFrame kind tag payload) s = .next taken) ∧
    (∀ r, s.cl.dispatcher = .replyWaiting r → 4 ≤ s.cl.requests.length → exec (.goodFrame kind tag payload) s = .next drop) ∧
    (∀ r, s.cl.dispatcher = .restarting r → exec (.goodFrame kind tag payload) s = .next drop)

/-- The first three tests of a served frame: an unknown kind, a wrong length, and a request not served while PARKED are answered with
their status alone and have no effect. The entries of a QUEUE_ADD are walked by their kind codes: an unknown one ends the walk, and the
request is refused with RANGE in every park state, whatever follows. -/
def Obligations.RequestTestsComeFirst : Prop :=
  ∀ (kind tag : Byte) (payload : List Byte) (s : State), LinkReady s → payload.length ≤ 1024 →
    let a := s.arrived
    (kind ∉ requestCodes →
      exec (.unknownKind kind tag payload) s = .next (a.deliver ⟨kind + 0x80, tag, [0x10]⟩) ∧
      exec (.goodFrame kind tag payload) s = .next (a.deliver ⟨kind + 0x80, tag, [0x10]⟩)) ∧
    (parseRequest kind payload = .badLength →
      exec (.goodFrame kind tag payload) s = .next (a.deliver ⟨kind + 0x80, tag, [0x11]⟩)) ∧
    (∀ r, parseRequest kind payload = .request r → s.le.park = .parked → kind ∉ ([0x01, 0x20, 0x2C, 0x31] : List Byte) →
      exec (.goodFrame kind tag payload) s = .next (a.deliver ⟨kind + 0x80, tag, [0x1A]⟩)) ∧
    (∀ (es : List RawEntry) (count code : Byte) (rest : List Byte), (Request.queueAdd es).wf = true → es.length < count.toNat →
      code = 0 ∨ 6 < code.toNat → payload = count :: (es.flatMap RawEntry.bytes ++ code :: rest) →
      exec (.goodFrame 0x10 tag payload) s = .next (a.deliver ⟨0x90, tag, [0x12]⟩)) ∧
    (payload.length ≠ 1 →
      kind ∈ ([0x01, 0x08, 0x0D, 0x11, 0x16, 0x20, 0x22, 0x28, 0x29, 0x2A, 0x2B, 0x2C] : List Byte) →
      parseRequest kind payload = .badLength)

/-- A length over 1024 is discarded and counted, and the two length bytes are taken again; a gap out of HUNT discards the partial
frame and is counted, and in HUNT has no effect. -/
def Obligations.LengthErrorsAndGaps : Prop :=
  ∀ (hi lo : Byte) (s : State),
    let c := s.cl.counters
    let gapped : State := { s with cl := { s.cl with rx := .hunt, counters := { c with gaps := satInc c.gaps } } }
    (s.cl.rx = .hunt → 1024 < (halfOf hi lo).toNat →
      exec (.lengthError hi lo) s =
        .next
          { s with
            cl :=
              { s.cl with
                rx := if hi = 0xC5 then .inFrame [lo] else if lo = 0xC5 then .inFrame [] else .hunt
                counters := { c with lengthErrors := satInc c.lengthErrors } } }) ∧
    (∀ held, s.cl.rx = .inFrame held → exec (.gap []) s = .next gapped) ∧
    (s.cl.rx = .hunt → exec (.gap []) s = .next s) ∧
    (∀ store : List Byte, s.cl.rx = .hunt →
      store.length < 2 ∨ storeLength store ≤ 1024 ∧ store.length < storeLength store + 6 →
      exec (.gap (0xC5 :: store)) s = .next gapped)

/-- A frame with a wrong CRC-16 is discarded and counted, and the bytes after its start byte are taken again as though they were
arriving; where none is a start byte, nothing more happens. -/
def Obligations.CrcErrorRescans : Prop :=
  ∀ (kind tag : Byte) (payload : List Byte) (hi lo : Byte) (s : State), s.cl.rx = .hunt → payload.length ≤ 1024 →
    let store := coveredBytes kind tag payload ++ [hi, lo]
    crc16 (coveredBytes kind tag payload) ≠ halfOf hi lo →
    let counted : State :=
      { s with cl := { s.cl with counters := { s.cl.counters with crcErrors := satInc s.cl.counters.crcErrors } } }
    exec (.crcError kind tag payload hi lo) s = .next (counted.feedLink store) ∧
    ((0xC5 : Byte) ∉ store → exec (.crcError kind tag payload hi lo) s = .next counted)

/-- A reply enters a transmit queue of fewer than 4 frames, and with 4 in it is held in REPLY_WAITING; a report or notice enters it, or is
dropped and counted. When a frame's last byte has gone out its place is freed: the next frame starts, a waiting reply takes the place and
the dispatcher goes on with the frames that wait in the buffer, oldest first, each served and its reply queued or held. RESTART is
answered OK and, after its reply has gone, the part resets with cause RESTART; a RESTART taken while frames wait behind it is answered
BUSY (PARKED while parked). The model's own: the reset takes the pins as the state holds them (DESIGN CHOICE, notes/assumptions/8.md and,
for PROT_N, 9.md), the held parameters in State.reset are 0 (DESIGN CHOICE, notes/assumptions/22.md), and the end of a frame with nothing
on the line changes nothing (DEDUCED, notes/assumptions/4.md). A reset that ends with KILL_N low is ResetTakesLowKillLine's. -/
def Obligations.FrameSentAndRestart : Prop :=
  ∀ (tag : Byte) (s : State),
    let sent (x : Console) : State := { s with cl := x }
    let ended := exec .consoleFrameSent s
    let entered (f : Frame) : State := sent { s.cl with txQueue := s.cl.txQueue ++ [f] }
    let drops := s.cl.counters.unaskedDrops
    (∀ f,
      (s.cl.txQueue.length < 4 → s.deliver f = entered f ∧ s.offerUnasked f = entered f) ∧
      (4 ≤ s.cl.txQueue.length →
        s.deliver f = sent { s.cl with dispatcher := .replyWaiting f } ∧
        s.offerUnasked f =
          sent { s.cl with counters := { s.cl.counters with unaskedDrops := if drops = 65535 then drops else drops + 1 } })) ∧
    (s.cl.txQueue = [] → ended = .next s) ∧
    (∀ f rest, s.cl.txQueue = f :: rest → s.cl.dispatcher = .ready → s.cl.requests = [] →
      ended = .next (sent { s.cl with txQueue := rest })) ∧
    (∀ f rest r, s.cl.txQueue = f :: rest → s.cl.dispatcher = .replyWaiting r → s.cl.requests = [] →
      ended = .next (sent { s.cl with txQueue := rest ++ [r], dispatcher := .ready })) ∧
    (∀ f rest r oldest more, s.cl.txQueue = f :: rest → s.cl.dispatcher = .replyWaiting r → s.cl.requests = oldest :: more →
      more.length ≤ 3 →
      let u := sent { s.cl with txQueue := rest ++ [r], dispatcher := .ready, requests := more }
      let x := serveFrame u oldest
      let reply : Frame := ⟨oldest.kind + 0x80, oldest.tag, x.status.code :: (if x.status.carriesItems then x.items else [])⟩
      let full : State := { x.state with cl := { x.state.cl with dispatcher := .replyWaiting reply } }
      let queued : State := { x.state with cl := { x.state.cl with txQueue := x.state.cl.txQueue ++ [reply] } }
      (oldest.kind ≠ 0x02 → 4 ≤ x.state.cl.txQueue.length → ended = .next full) ∧
      (oldest.kind ≠ 0x02 → x.state.cl.txQueue.length < 4 → ended = .next queued.dispatch ∧ (more = [] → queued.dispatch = queued)) ∧
      (oldest.kind = 0x02 → oldest.payload = [] → more ≠ [] →
        x = ⟨u, if s.le.park = .parked then .parked else .busy, []⟩ ∧
        (4 ≤ (rest ++ [r]).length → ended = .next full) ∧ ((rest ++ [r]).length < 4 → ended = .next queued.dispatch))) ∧
    (∀ f rest r, s.cl.txQueue = f :: rest → s.cl.dispatcher = .restarting (some r) →
      ended = .next (sent { s.cl with txQueue := rest ++ [r], dispatcher := .restarting none })) ∧
    (∀ f rest, s.cl.txQueue = f :: rest → s.cl.dispatcher = .restarting none → f.kind ≠ 0x82 →
      ended = .next (sent { s.cl with txQueue := rest })) ∧
    (∀ rest, s.cl.txQueue = ⟨0x82, tag, [0]⟩ :: rest → s.cl.dispatcher = .restarting none → s.killAsserted = false →
      ended =
        .next
          { State.reset with
            ms :=
              { State.reset.ms with
                trig0 := ⟨s.ms.trig0.line, s.ms.trig0.line, false, 0⟩, trig1 := ⟨s.ms.trig1.line, s.ms.trig1.line, false, 0⟩ }
            cl := { State.reset.cl with resetCause := .restart }
            ps := { s.ps with latch := false, busy := .idle, busyElapsed := 0, parityFlag := false, lastBad := none }
            protHigh := s.protHigh
            pending := s.pending
            schedule := s.schedule
            freeCount := s.freeCount }) ∧
    (Serving s →
      exec (.restart tag) s =
        .next
          (if s.cl.txQueue.length < 4 then
            ({ s.arrived with
              cl := { s.arrived.cl with txQueue := s.cl.txQueue ++ [⟨0x82, tag, [0]⟩], dispatcher := .restarting none } } : State)
          else
            { s.arrived with cl := { s.arrived.cl with dispatcher := .restarting (some ⟨0x82, tag, [0]⟩) } }))

/-- The expiry of a silence timer that has reached its limit zeroes the demanded rate of every axis in RATE and makes LINK_SILENT true.
Below the limit, as after a good frame taken first, there is no expiry; that an expiry commanded of a timer that does not run changes
nothing is DEDUCED (notes/assumptions/4.md). -/
def Obligations.SilenceExpiryZeroesRates : Prop :=
  ∀ s : State,
    let reached : Prop := s.cl.silence = .running ∧ 32000 * s.cl.setup.silenceLimit ≤ s.cl.silenceElapsed
    (reached →
      exec .silenceExpiry s =
        .next
          (({ s with
            axes := s.axes.mapAxis (fun _ a => if a.mode = .rate then { a with rdTarget := 0 } else a)
            cl := { s.cl with silence := .expired, silenceElapsed := 0 } } : State).settle []) ∧
      conditionTruth ({ s with cl := { s.cl with silence := .expired } } : State) .linkSilent = true) ∧
    (¬reached → exec .silenceExpiry s = .next s)

/-! ### Requests of the console -/

/-- The reading requests answer OK with their items and change nothing: STATE, TUNE_READ, QUEUE_READ, WPT_READ, SWEEP_READ; and, in
every park state, IDENT, ALERT_READ and STORE_STATUS, whose clear option clears its flags after the reply is formed. STORE_STATUS
carries the level of PROT_N as its operand (DESIGN CHOICE, notes/assumptions/9.md). The items are the records that Records.lean lays
out by section 9.9. -/
def Obligations.ReadRequestsAnswerAndChangeNothing : Prop :=
  ∀ (tag x y : Byte) (pin : Bool) (s : State),
    let a := s.arrived
    let ok (kind : Byte) (items : List Byte) : State := a.deliver (okReply kind tag items)
    let range (kind : Byte) : State := a.deliver (statusReply kind tag .range)
    (Serving s →
      exec (.state tag x) s =
        .next (if x ≠ 0 ∧ x.toNat < 32 then ok 0x08 ((axesOf (x.setWidth 5)).flatMap (axisRecord a)) else range 0x08) ∧
      (∀ k, x = byteOf (axisIndex k) → y = 0 →
        exec (.tuneRead tag x y) s = .next (ok 0x0C (tuneRecord (a.axis k).active (a.axis k).swapPending))) ∧
      (∀ k, x = byteOf (axisIndex k) → y = 1 →
        exec (.tuneRead tag x y) s = .next (ok 0x0C (tuneRecord (a.axis k).staged (a.axis k).swapPending))) ∧
      (4 < x.toNat ∨ 1 < y.toNat → exec (.tuneRead tag x y) s = .next (range 0x0C)) ∧
      exec (.queueRead tag) s = .next (ok 0x12 (queueRecord a)) ∧
      exec (.wptRead tag x y) s =
        .next
          (if x.toNat ≤ 63 ∧ 1 ≤ y.toNat ∧ y.toNat ≤ 16 ∧ x.toNat + y.toNat ≤ 64 then
            ok 0x15 (((s.ms.waypoints.drop x.toNat).take y.toNat).flatMap Waypoint.bytes)
          else range 0x15) ∧
      exec (.sweepRead tag) s = .next (ok 0x1E (sweepRecord s.sw))) ∧
    (LinkReady s →
      exec (.ident tag x) s =
        .next
          ((if x.getLsbD 0 then { a with cl := { a.cl with resetSeen := false } } else a).deliver
            (okReply 0x01 tag (identRecord a))) ∧
      exec (.alertRead tag x) s =
        .next
          ((if x.getLsbD 0 then { a with alc := { a.alc with seen1 := false, seen2 := false } } else a).deliver
            (okReply 0x20 tag (alertRecord a)))) ∧
    (let q : State := { s with protHigh := pin }
     LinkReady q →
      exec (.storeStatus tag x pin) s =
        .next
          ((if x.getLsbD 0 then { q.arrived with ps := { q.arrived.ps with parityFlag := false } } else q.arrived).deliver
            (okReply 0x2C tag (storeRecord q.arrived))))

/-- HALT sets the flag, stops the frame timer and hands each link a BRAKE word; RUN clears the flag and restarts the timer from
zero; STEP takes one loop frame while halted, with its computations, the head's count and its reports, on the state the request arrives
in. Each replies OK; a second HALT or RUN changes nothing; STEP running is refused. -/
def Obligations.HaltRunAndStep : Prop :=
  ∀ (tag : Byte) (s : State), Serving s →
    let a := s.arrived
    let base := s.si.sen.base
    (s.le.halted = false →
      exec (.halt tag) s =
        .next
          (({ a with
            le := { s.le with halted := true, frameTimer := false, frameElapsed := 0 }
            dl := s.dl.mapAxis (fun _ l => l.hand ⟨.brake, false, 2048⟩) } : State).deliver ⟨0x83, tag, [0]⟩) ∧
      exec (.run tag) s = .next (a.deliver ⟨0x84, tag, [0]⟩) ∧
      exec (.step tag) s = .next (a.deliver ⟨0x85, tag, [0x13]⟩)) ∧
    (s.le.halted = true →
      exec (.halt tag) s = .next (a.deliver ⟨0x83, tag, [0]⟩) ∧
      exec (.run tag) s =
        .next
          (({ a with le := { s.le with halted := false, frameTimer := true, frameElapsed := 0 } } : State).deliver
            ⟨0x84, tag, [0]⟩) ∧
      exec (.step tag) s = .next (a.takeFrame.deliver ⟨0x85, tag, [0]⟩) ∧
        a.takeFrame.le =
          { s.le with
            frameNo := s.le.frameNo + 1
            ring := ((if base.fresh then ⟨base.slot.yaw, base.slot.pitch, base.slot.roll⟩ else ⟨0, 0, 0⟩) :: s.le.ring).take 64
            heading := if base.fresh then s.le.heading + base.slot.yaw.signExtend 32 else s.le.heading })

/-- SETUP is refused whole with RANGE when a present staleness limit, gravBand, driverMissLimit, strictLoad or cue selector is outside
its range or the mask names no field; otherwise it writes every present field, the silence limit clamped and the cue selectors into the
cue source table, keeps the absent ones, and replies with the record; when no timer limit is among the fields nothing else changes. -/
def Obligations.SetupWritesPresentFields : Prop :=
  ∀ (tag : Byte) (f : SetupFields) (s : State), Serving s →
    let a := s.arrived
    let t := a.applySetup f
    let outside (x : Option Byte) (lo hi : Nat) : Prop := ∃ b, x = some b ∧ (b.toNat < lo ∨ hi < b.toNat)
    let badSelector (c : RawSelector) : Prop :=
      5 < c.code.toNat ∨ (c.code.toNat = 1 ∨ c.code.toNat = 2) ∧ 4 < c.param.toNat ∨ c.code.toNat = 3 ∧ 1 < c.param.toNat ∨
        c.code.toNat = 5 ∧ (c.param.toNat < 1 ∨ 2 < c.param.toNat)
    let bad : Prop :=
      outside f.staleBase 1 64 ∨ outside f.staleTip 1 64 ∨ outside f.staleHead 1 64 ∨
        (∃ h, f.gravBand = some h ∧ (h.toNat < 10 ∨ 500 < h.toNat)) ∨ outside f.driverMiss 1 15 ∨ outside f.strictLoad 0 1 ∨
        f.bit7 = true ∨ ∃ c, some c ∈ f.selectors ∧ badSelector c
    (bad → exec (.setup tag f) s = .next (a.deliver ⟨0x86, tag, [0x12]⟩)) ∧
    (¬bad →
      exec (.setup tag f) s = .next (t.deliver (okReply 0x06 tag (setupRecord t))) ∧
      t.cl.setup =
        { silenceLimit := (match f.silence with | some h => max 20 (min h.toNat 2000) | none => s.cl.setup.silenceLimit)
          staleLimit :=
            { base := (match f.staleBase with | some b => b.toNat | none => s.cl.setup.staleLimit.base)
              tip := (match f.staleTip with | some b => b.toNat | none => s.cl.setup.staleLimit.tip)
              head := (match f.staleHead with | some b => b.toNat | none => s.cl.setup.staleLimit.head) }
          gravBand := (match f.gravBand with | some h => h.toNat | none => s.cl.setup.gravBand)
          driverMissLimit := (match f.driverMiss with | some b => b.toNat | none => s.cl.setup.driverMissLimit)
          strictLoad := (match f.strictLoad with | some b => decide (b = 1) | none => s.cl.setup.strictLoad) } ∧
      (∀ n old, n < 8 → s.ms.cueSources[n]? = some old →
        ∃ new, t.ms.cueSources[n]? = some new ∧
          match f.selectors[n]? with
          | some (some c) => selectorOf c.code c.param = some new
          | _ => new = old) ∧
      (f.silence = none → f.staleBase = none → f.staleTip = none → f.staleHead = none →
        t = { a with cl := { a.cl with setup := t.cl.setup }, ms := { a.ms with cueSources := t.ms.cueSources } }))

/-- MODE is checked as a whole: RANGE for its fields, STATE when the table refuses any axis, and otherwise every axis in the mask
makes its transition, with the captures of ModeChangesTakeTheirCaptures, or stays as it is where the table says no change; then the DAMP
action is applied to it. Beside the axes a MODE changes at most the head's outstanding set, which loses the axes whose segment or launch of
the head's serial is aborted, with the aborted flag, and a sweep on an axis that it takes out of HOLD, which ends ABORTED with the saved D,
the last result and a notice. -/
def Obligations.ModeIsCheckedAsAWhole : Prop :=
  ∀ (tag mask target damp : Byte) (s : State), Serving s →
    let a := s.arrived
    let named (k : Axis) : Bool := mask.getLsbD (axisIndex k)
    let goodFields : Prop :=
      mask ≠ 0 ∧ mask.toNat < 32 ∧ (target.toNat ≤ 4 ∨ target = 0xFF) ∧ damp.toNat ≤ 2 ∧ ¬(target = 0xFF ∧ damp = 0) ∧
      ¬(target = 4 ∧ ∃ k, isHeading k = false ∧ named k = true)
    let refusedAxis (k : Axis) : Prop :=
      named k = true ∧ (2 ≤ target.toNat ∧ target.toNat ≤ 4) ∧ ((s.axis k).mode = .off ∨ (s.axis k).mode = .safe)
    let wanted : TargetMode := match target.toNat with | 0 => .off | 1 => .stopped | 2 => .hold | 3 => .rate | _ => .follow
    (¬goodFields → exec (.mode tag mask target damp) s = .next (a.deliver ⟨0x89, tag, [0x12]⟩)) ∧
    (goodFields → (∃ k, refusedAxis k) → exec (.mode tag mask target damp) s = .next (a.deliver ⟨0x89, tag, [0x13]⟩)) ∧
    (goodFields → (∀ k, ¬refusedAxis k) →
      let changed (k : Axis) : Bool := named k && decide (target ≠ 0xFF) && decide ((s.axis k).mode ≠ wanted.toMode)
      ∃ t : State, exec (.mode tag mask target damp) s = .next ((t.settle []).deliver ⟨0x89, tag, [0]⟩) ∧
        (∀ k,
          let x := s.axis k
          let y : AxisRec := if changed k then (s.makeTransition k wanted).axis k else x
          (named k = false → t.axis k = x) ∧
          (named k = true →
            t.axis k = { y with damp := if damp = 1 then true else if damp = 2 then false else x.damp } ∧
            (t.axis k).mode = (if target = 0xFF then x.mode else wanted.toMode))) ∧
        t = { a with axes := t.axes, ms := { s.ms with phase := t.ms.phase }, sw := t.sw, cl := t.cl } ∧
        (∀ head rest out ab, s.ms.queue = head :: rest → s.ms.phase = .waitingSegments out ab →
          let gone (k : Axis) : Bool :=
            hasAxis out k && changed k &&
              (decide ((s.axis k).segment.map Segment.serial = some head.serial) ||
                decide ((s.axis k).launch.map Segment.serial = some head.serial))
          t.ms.phase = .waitingSegments (axisSetOf (fun k => hasAxis out k && !gone k)) (ab || allAxes.any gone)) ∧
        (s.ms.queue = [] ∨ (∀ out ab, s.ms.phase ≠ .waitingSegments out ab) → t.ms.phase = s.ms.phase) ∧
        (∀ k, changed k = true → sweeping s k = true → (s.axis k).mode = .hold →
          t.sw = { s.sw with running := false, last := ⟨.aborted, k, s.sw.savedD, none, none, s.le.frameNo⟩ } ∧
          t.cl =
            (a.offerUnasked ⟨0x49, 0, wordBytes s.le.frameNo ++ [1, byteOf (axisIndex k), 4, byteOf s.sw.savedD]⟩).cl) ∧
        ((∀ k, changed k = true → sweeping s k = true → (s.axis k).mode ≠ .hold) → t.sw = s.sw ∧ t.cl = a.cl))

/-- The captures of a mode change: into an active mode from STOPPED or SAFE the target is taken at W and the output side cleared;
between active modes T and I stay, and RATE starts from standstill; into FOLLOW the offset is captured; OFF and STOPPED write the
mode alone. Segment and pending launch leave the axis, and a sweep that runs on an axis leaving HOLD ends, putting the saved D back. -/
def Obligations.ModeChangesTakeTheirCaptures : Prop :=
  ∀ (s : State) (k : Axis) (target : TargetMode),
    let x := s.axis k
    let swept : Bool := sweeping s k && decide (x.mode = .hold)
    let a : AxisRec := if swept then { x with active := { x.active with d := s.sw.savedD } } else x
    let u := s.makeTransition k target
    let b := u.axis k
    let still : AxisRec := { a with segment := none, launch := none, mode := target.toMode }
    (target = .off ∨ target = .stopped → b = still) ∧
    (isActive a.mode = false → target = .hold ∨ target = .rate ∨ target = .follow →
      b =
        { still with
          t := a.w, i := 0, uPrev := 0, rdEff := 0, rdTarget := 0, satFlag := .none, pinState := .none, satCount := 0
          pinCount := 0, coastCount := 0, o := if target = .follow then a.w - a.f else a.o }) ∧
    (isActive a.mode = true → target = .hold → b = still) ∧
    (isActive a.mode = true → target = .rate → b = { still with rdEff := 0, rdTarget := 0 }) ∧
    (isActive a.mode = true → target = .follow → b = { still with o := a.t - a.f }) ∧
    (∀ j, j ≠ k → u.axis j = s.axis j) ∧ (swept = false → u.sw = s.sw) ∧
    (swept = true → u.sw = { s.sw with running := false, last := ⟨.aborted, k, s.sw.savedD, none, none, s.le.frameNo⟩ })

/-- DEMAND writes rdTarget, clamped to ±Rmax, on the present axes that are in RATE, and answers which took their value. -/
def Obligations.DemandWritesRateAxes : Prop :=
  ∀ (tag mask : Byte) (rates : List Half) (s : State), Serving s → rates.length = axisCount mask →
    (∀ k, (s.axis k).active.ok = true) →
    let a := s.arrived
    let sent := spreadOffsets mask rates
    (32 ≤ mask.toNat → exec (.demand tag mask rates) s = .next (a.deliver ⟨0x8A, tag, [0x12]⟩)) ∧
    (mask.toNat < 32 →
      ∃ (t : State) (took : AxisSet),
        exec (.demand tag mask rates) s = .next (t.deliver ⟨0x8A, tag, [0, took.setWidth 8]⟩) ∧
        t = { a with axes := t.axes } ∧
        ∀ k, match sent.get k with
          | some r =>
            ((s.axis k).mode = .rate →
              hasAxis took k = true ∧
              ∃ v : Half, t.axis k = { s.axis k with rdTarget := v } ∧
                v.toInt = max (-((s.axis k).active.rmax : Int)) (min (s.axis k).active.rmax r.toInt)) ∧
            ((s.axis k).mode ≠ .rate → hasAxis took k = false ∧ t.axis k = s.axis k)
          | none => hasAxis took k = false ∧ t.axis k = s.axis k)

/-- TUNE checks its whole list and then makes the trial record the staged one; APPLY sets swapPending on every axis in its mask. A
failed check is RANGE and changes nothing; the active record is never touched. -/
def Obligations.TuneAndApply : Prop :=
  ∀ (tag axis mask : Byte) (pairs : List TunePair) (s : State), Serving s → (Request.tune axis pairs).wf = true →
    let a := s.arrived
    (∀ k, axis = byteOf (axisIndex k) →
      let trial := pairs.foldl (fun r p => r.setField p.field.toNat p.value.toInt) (s.axis k).staged
      let passes : Prop :=
        1 ≤ pairs.length ∧ pairs.length ≤ 30 ∧
        (∀ p ∈ pairs, fieldApplies p.field.toNat k = true ∧ fieldInRange p.field.toNat p.value.toInt = true) ∧
        trial.jmin < trial.jmax ∧ trial.udamp ≤ trial.umax ∧ trial.usafe ≤ trial.umax
      (passes →
        exec (.tune tag axis pairs) s = .next ((a.setAxis k { s.axis k with staged := trial }).deliver ⟨0x8B, tag, [0]⟩)) ∧
      (¬passes → exec (.tune tag axis pairs) s = .next (a.deliver ⟨0x8B, tag, [0x12]⟩))) ∧
    (4 < axis.toNat → exec (.tune tag axis pairs) s = .next (a.deliver ⟨0x8B, tag, [0x12]⟩)) ∧
    (mask ≠ 0 → mask.toNat < 32 →
      exec (.apply tag mask) s =
        .next
          (({ a with
            axes := s.axes.mapAxis (fun k x => if mask.getLsbD (axisIndex k) then { x with swapPending := true } else x) } :
              State).deliver ⟨0x8D, tag, [0]⟩)) ∧
    (mask = 0 ∨ 32 ≤ mask.toNat → exec (.apply tag mask) s = .next (a.deliver ⟨0x8D, tag, [0x12]⟩))

/-- QUEUE_ADD is checked whole, each entry by the checks of its kind: axis masks below 32, a slot up to 63, durations, counts and timeouts
up to 1,048,576, a WAIT's cue mask not 0 and its timeout not 0, a MODE entry's target STOPPED, HOLD, RATE or FOLLOW; a duration or count of
0 is stored as 1. It is refused with RANGE or FULL and admits nothing, or appends its entries with the next serials and replies with the
first serial and the count. While progress is not allowed nothing begins. That the flag bits without a meaning are not examined, nor the
timeout field of a WAIT whose flags say it has none, is the model's reading (DEDUCED, notes/assumptions/17.md). -/
def Obligations.QueueAddAdmitsWhole : Prop :=
  ∀ (tag : Byte) (es : List RawEntry) (s : State), Serving s → (Request.queueAdd es).wf = true →
    let a := s.arrived
    let n := es.length
    let stored (x : Word) : Nat := if x = 0 then 1 else x.toNat
    let shape (f : Byte) : Shape := if f.getLsbD 0 then .eased else .linear
    let endMode (f : Byte) : EndMode := if f.getLsbD 1 then .follow else .hold
    let admits (e : RawEntry) (b : EntryBody) : Prop :=
      match e with
      | .goto _ m slot dn f =>
        m.toNat < 32 ∧ slot.toNat ≤ 63 ∧ dn.toNat ≤ 1048576 ∧
        b = .goto (m.setWidth 5) slot.toNat (stored dn) (shape f) (endMode f) (f.getLsbD 2)
      | .shift _ m ds dn f =>
        m.toNat < 32 ∧ dn.toNat ≤ 1048576 ∧
        ∃ deltas : Five (Option Word), b = .shift deltas (stored dn) (shape f) (endMode f) (f.getLsbD 2) ∧
          allAxes.filterMap deltas.get = ds ∧ ∀ k, (deltas.get k).isSome = m.getLsbD (axisIndex k)
      | .dwell _ x => x.toNat ≤ 1048576 ∧ b = .dwell (stored x)
      | .wait _ m f x =>
        m ≠ 0 ∧ (f.getLsbD 2 = true → 1 ≤ x.toNat ∧ x.toNat ≤ 1048576) ∧
        b = .wait m (f.getLsbD 0) (f.getLsbD 1) (if f.getLsbD 2 then some x.toNat else none)
      | .cue _ set clear => b = .cue set clear
      | .mode _ m x =>
        m.toNat < 32 ∧
        (x = 1 ∧ b = .mode (m.setWidth 5) .stopped ∨ x = 2 ∧ b = .mode (m.setWidth 5) .hold ∨
          x = 3 ∧ b = .mode (m.setWidth 5) .rate ∨ x = 4 ∧ b = .mode (m.setWidth 5) .follow)
    let fits := n ≠ 0 ∧ n ≤ 8 ∧ ∀ e ∈ es, ∃ b, admits e b
    (¬fits → exec (.queueAdd tag es) s = .next (a.deliver ⟨0x90, tag, [0x12]⟩)) ∧
    (fits → 32 < s.ms.queue.length + n → exec (.queueAdd tag es) s = .next (a.deliver ⟨0x90, tag, [0x15]⟩)) ∧
    (fits → s.ms.queue.length + n ≤ 32 →
      ∃ (new : List Entry) (t : State),
        new.length = n ∧
        (∀ i e, es[i]? = some e →
          ∃ b, admits e b ∧ new[i]? = some (⟨s.ms.nextSerial + BitVec.ofNat 16 i, rawEntryTag e, b⟩ : Entry)) ∧
        t =
          { a with
            ms :=
              { s.ms with
                queue := s.ms.queue ++ new
                nextSerial := s.ms.nextSerial + BitVec.ofNat 16 n
                phase := if s.ms.queue = [] then .pending else s.ms.phase } } ∧
        exec (.queueAdd tag es) s =
          .next ((t.settle []).deliver (okReply 0x10 tag (halfBytes s.ms.nextSerial ++ [byteOf n]))) ∧
        (progress s = false → t.settle [] = t))

/-- QUEUE_CTRL: RUN takes the head up, PAUSE freezes it where it stands, FLUSH removes every entry without outcome and answers how
many; any other action is RANGE. The head's moves, made only while progress is allowed: a PENDING entry begins by its kind's rule (GOTO
and SHIFT launch on each axis that can take a segment, with S0 from the setpoint and S1 from the waypoint or S0 plus the delta; DWELL
counts; WAIT tests its cues, consuming; CUE writes them; MODE makes the table's transitions), a waiting WAIT whose condition holds
retires, a GOTO or SHIFT retires when its outstanding set is empty. Each retirement takes the entry off the queue and appends its record
to the Done List of eight. Reports of segments reach the head by serial and axis; a head that is not waiting for segments takes none. -/
def Obligations.QueueControl : Prop :=
  (∀ (tag x : Byte) (s : State), Serving s →
    let a := s.arrived
    exec (.queueCtrlRun tag) s =
      .next ((({ a with ms := { s.ms with running := true } } : State).settle []).deliver ⟨0x91, tag, [0]⟩) ∧
    exec (.queueCtrlPause tag) s = .next (({ a with ms := { s.ms with running := false } } : State).deliver ⟨0x91, tag, [0]⟩) ∧
    exec (.queueCtrlFlush tag) s =
      .next
        (({ a with ms := { s.ms with queue := [], phase := .none } } : State).deliver
          ⟨0x91, tag, [0, byteOf s.ms.queue.length]⟩) ∧
    (3 ≤ x.toNat → exec (.goodFrame 0x11 tag [x]) s = .next (a.deliver ⟨0x91, tag, [0x12]⟩)) ∧
    (∀ e rest n, s.ms.queue = e :: rest → s.ms.phase = .pending → s.ms.holdKill = false → s.ms.holdAlert = false →
      e.body = .dwell n →
      exec (.queueCtrlRun tag) s =
        .next (({ a with ms := { s.ms with running := true, phase := .dwelling n } } : State).deliver ⟨0x91, tag, [0]⟩))) ∧
  (∀ s : State, progress s = false → s.headStep = none) ∧
  (∀ (s : State) (e : Entry) (rest : List Entry), progress s = true → s.ms.queue = e :: rest →
    let retired (u : State) (outcome : EntryOutcome) : State :=
      { u with
        ms :=
          { u.ms with
            queue := rest
            phase := if rest = [] then .none else .pending
            doneList :=
              (u.ms.doneList ++ [(⟨e.serial, e.tag, e.body.kind, outcome, u.le.frameNo⟩ : DoneRecord)]).drop (u.ms.doneList.length - 7) } }
    let phased (u : State) (p : HeadPhase) : State := { u with ms := { u.ms with phase := p } }
    let flags (c : Byte) : State := { s with ms := { s.ms with cues := c } }
    let holds (mask : Byte) (any : Bool) : Prop := if any then s.ms.cues &&& mask ≠ 0 else s.ms.cues &&& mask = mask
    let met (mask : Byte) (consume : Bool) : State :=
      retired (flags (if consume then s.ms.cues &&& ~~~mask else s.ms.cues)) .done
    let s0 (k : Axis) : Int :=
      if isHeading k then wrapDiff (s.axis k).t (s.axis k).f else (s.axis k).t.toInt
    let launches (s1 : Axis → Option Word) (dn : Nat) (shape : Shape) (endMode : EndMode) (wait : Bool) : Prop :=
      let takes (k : Axis) : Bool := isActive (s.axis k).mode && (s1 k).isSome
      let u : State :=
        { s with
          axes :=
            s.axes.mapAxis
              (fun k a =>
                if takes k then
                  { a with launch := some ⟨e.serial, BitVec.ofInt 32 (s0 k), (s1 k).getD 0, dn, 0, shape, endMode⟩ }
                else a) }
      s.headStep =
        some
          (if axisSetOf takes = 0 then retired s .skipped
          else if wait then phased u (.waitingSegments (axisSetOf takes) false)
          else retired u .done)
    (s.ms.phase = .pending →
      (∀ n, e.body = .dwell n → s.headStep = some (phased s (.dwelling n))) ∧
      (∀ mask any consume timeout, e.body = .wait mask any consume timeout →
        (holds mask any → s.headStep = some (met mask consume)) ∧
        (¬holds mask any → s.headStep = some (phased s (.waitingCue timeout)))) ∧
      (∀ set clear, e.body = .cue set clear → s.headStep = some (retired (flags ((s.ms.cues &&& ~~~clear) ||| set)) .done)) ∧
      (∀ mask target, e.body = .mode mask target →
        let made (k : Axis) : Bool :=
          hasAxis mask k && decide ((s.axis k).mode ≠ target.toMode) &&
            !(decide (target = .hold ∨ target = .rate ∨ target = .follow) &&
              decide ((s.axis k).mode = .off ∨ (s.axis k).mode = .safe)) &&
            !(decide (target = .follow) && !isHeading k)
        ∃ u : State, u.ms = s.ms ∧ u.le = s.le ∧
          (∀ k, u.axis k = if made k then (s.makeTransition k target).axis k else s.axis k) ∧
          s.headStep = some (retired u (if allAxes.any made then .done else .skipped))) ∧
      (∀ mask slot dn shape endMode wait, e.body = .goto mask slot dn shape endMode wait →
        launches (fun k => if hasAxis mask k then (s.ms.waypoints[slot]?).bind (fun w => w.offsets.get k) else none)
          dn shape endMode wait) ∧
      (∀ deltas dn shape endMode wait, e.body = .shift deltas dn shape endMode wait →
        launches
          (fun k =>
            (deltas.get k).map (fun d => BitVec.ofInt 32 (max (-2147483648) (min 2147483647 (s0 k + d.toInt)))))
          dn shape endMode wait)) ∧
    (∀ left mask any consume timeout, s.ms.phase = .waitingCue left → e.body = .wait mask any consume timeout →
      (holds mask any → s.headStep = some (met mask consume)) ∧ (¬holds mask any → s.headStep = none)) ∧
    (∀ out aborted, s.ms.phase = .waitingSegments out aborted →
      s.headStep = if out = 0 then some (retired s (if aborted then .aborted else .done)) else none) ∧
    (∀ n, s.ms.phase = .dwelling n → s.headStep = none)) ∧
  (∀ (s : State) (e : Entry) (rest : List Entry) (k : Axis) (serial : Half) (aborted : Bool) (out : AxisSet) (ab : Bool),
    s.ms.queue = e :: rest → s.ms.phase = .waitingSegments out ab →
    s.reportSegment k serial aborted =
      if e.serial = serial ∧ hasAxis out k = true then
        { s with ms := { s.ms with phase := .waitingSegments (axisSetOf (fun q => hasAxis out q && decide (q ≠ k))) (ab || aborted) } }
      else s) ∧
  (∀ (s : State) (k : Axis) (serial : Half) (aborted : Bool), s.ms.queue = [] ∨ (∀ out ab, s.ms.phase ≠ .waitingSegments out ab) →
    s.reportSegment k serial aborted = s)

/-- WPT_WRITE writes its records in list order into the slots of the start's page, wrapping within it, each replacing label and
offsets; a locked page is LOCKED, a failed check RANGE. WPT_LOCK writes all four locks. -/
def Obligations.WaypointWritesStayInPage : Prop :=
  ∀ (tag start flags : Byte) (rs : List WptRecord) (s : State), Serving s → (Request.wptWrite start rs).wf = true →
    s.ms.waypoints.length = 64 →
    let a := s.arrived
    let fits := start.toNat ≤ 63 ∧ rs ≠ [] ∧ rs.length ≤ 48 ∧ ∀ r ∈ rs, r.mask.toNat < 32
    let page := start.toNat / 16
    (¬fits → exec (.wptWrite tag start rs) s = .next (a.deliver ⟨0x94, tag, [0x12]⟩)) ∧
    (fits → s.ms.locks.getLsbD page = true → exec (.wptWrite tag start rs) s = .next (a.deliver ⟨0x94, tag, [0x16]⟩)) ∧
    (fits → s.ms.locks.getLsbD page = false →
      ∃ ws : List Waypoint, ws.length = 64 ∧
        exec (.wptWrite tag start rs) s = .next (({ a with ms := { s.ms with waypoints := ws } } : State).deliver ⟨0x94, tag, [0]⟩) ∧
        (∀ i, i / 16 ≠ page → ws[i]? = s.ms.waypoints[i]?) ∧
        (∀ i, i < 16 → (∀ j, j < rs.length → (start.toNat % 16 + j) % 16 ≠ i) →
          ws[16 * page + i]? = s.ms.waypoints[16 * page + i]?) ∧
        (∀ j r, rs[j]? = some r → rs.length ≤ j + 16 →
          ws[16 * page + (start.toNat % 16 + j) % 16]? = some ⟨r.label, spreadOffsets r.mask r.offsets⟩)) ∧
    (flags.toNat ≤ 15 →
      exec (.wptLock tag flags) s =
        .next (({ a with ms := { s.ms with locks := flags.setWidth 4 } } : State).deliver ⟨0x96, tag, [0]⟩)) ∧
    (15 < flags.toNat → exec (.wptLock tag flags) s = .next (a.deliver ⟨0x96, tag, [0x12]⟩))

/-- CUE writes its source pairs in list order, then clears and sets the flags in one change, and replies with the flags, the table
and the trigger lines as they stand once it is done; where no WAIT is at the head nothing else changes. A change of the flags is tested
once against the head, in the same event: a WAIT in WAITING_CUE whose condition now holds makes its move (QueueControl says which) while
progress is allowed; in any other phase, or while progress is not allowed, the change is the flags' alone, and a change that leaves
every flag as it was is none. The entries behind a WAIT so retired begin before a source of the same event becomes pending: a PENDING head
that may begin does so first. That order is the model's choice, the manual giving none (DESIGN CHOICE, notes/assumptions/32.md). -/
def Obligations.CueWritesTableAndFlags : Prop :=
  (∀ (tag clear set : Byte) (pairs : List CuePair) (s : State), Serving s → pairs.length < 256 →
    let a := s.arrived
    let fits := pairs.length ≤ 8 ∧ ∀ p ∈ pairs, p.cue.toNat < 8 ∧ selectorOf p.code p.param ≠ none
    let table := pairs.foldl (fun t p => t.set p.cue.toNat ((selectorOf p.code p.param).getD .none)) s.ms.cueSources
    let t : State := { a with ms := { s.ms with cueSources := table } }
    let u : State := t.changeCues ((s.ms.cues &&& ~~~clear) ||| set)
    (¬fits → exec (.cue tag clear set pairs) s = .next (a.deliver ⟨0x98, tag, [0x12]⟩)) ∧
    (fits → exec (.cue tag clear set pairs) s = .next ((u.settle []).deliver (okReply 0x18 tag (cueRecord (u.settle []))))) ∧
    ((∀ n, s.ms.phase ≠ .waitingCue n) ∨ progress s = false →
      u.settle [] = { a with ms := { s.ms with cueSources := table, cues := (s.ms.cues &&& ~~~clear) ||| set } })) ∧
  (∀ (s : State) (c : Byte),
    let written : State := { s with ms := { s.ms with cues := c } }
    (c = s.ms.cues → s.changeCues c = s) ∧
    ((∀ n, s.ms.phase ≠ .waitingCue n) ∨ progress s = false → s.changeCues c = written) ∧
    (∀ n, c ≠ s.ms.cues → s.ms.phase = .waitingCue n →
      (written.headStep = none → s.changeCues c = written) ∧
      (∀ u, written.headStep = some u → s.changeCues c = u))) ∧
  (∀ (s u : State) (src : Source) (param : Half),
    let judged (x : State) : Prop := x.dropFallen = x ∧ risings x = []
    s.ms.phase = .pending → s.headStep = some u → judged s → s.arbitrate = none → judged u →
    s.settle [.raised src param] = u.settle [.raised src param])

/-- SWEEP is accepted on an axis in HOLD while the unit is idle: the context is written, R(Dlo)..R(Dhi) zeroed and Dlo put into the active
D; its three checks decide in order. While it runs, a computation of its axis counts in HOLD with its feedback unit fresh, unless the kill
PAUSE effect holds the axis (a HALTED one counts, the line asserted or not); HeldComputationBrakes brings every other computation to
these. |g| joins the sum, and the count that reaches Wn writes the window's sum as the residual of current D, then steps D or ends the
sweep DONE or DONE_GAPPED with the midpoint of the good set in both copies, or NO_WINDOW with the saved D, with the last result and a
notice. SWEEP_STOP ends it ABORTED with the saved D, the last result and a notice. That a SWEEP is accepted while UNPARKING too is DEDUCED
(notes/assumptions/30.md). -/
def Obligations.SweepStartsAndStops : Prop :=
  (∀ (tag axis dlo dhi : Byte) (wn : Half) (q : Word) (s : State), Serving s →
    let a := s.arrived
    let request := exec (.sweep tag axis dlo dhi wn q) s
    let fits := axis.toNat ≤ 4 ∧ dhi.toNat ≤ 63 ∧ dlo.toNat ≤ dhi.toNat ∧ 256 ≤ wn.toNat ∧ wn.toNat ≤ 8192
    (¬fits → request = .next (a.deliver ⟨0x9C, tag, [0x12]⟩)) ∧
    (fits → s.sw.running = true → request = .next (a.deliver ⟨0x9C, tag, [0x14]⟩)) ∧
    (fits → s.sw.running = false → ∀ k, axis = byteOf (axisIndex k) →
      let x := s.axis k
      (x.mode ≠ .hold → request = .next (a.deliver ⟨0x9C, tag, [0x13]⟩)) ∧
      (x.mode = .hold →
        request =
          .next
            (({ a.setAxis k { x with active := { x.active with d := dlo.toNat } } with
              sw :=
                { running := true, axis := k, dlo := dlo.toNat, dhi := dhi.toNat, wn := wn.toNat, q := q, savedD := x.active.d
                  currentD := dlo.toNat, count := 0, sum := 0
                  results := s.sw.results.mapIdx (fun d r => if dlo.toNat ≤ d ∧ d ≤ dhi.toNat then 0 else r)
                  last := s.sw.last } } : State).deliver ⟨0x9C, tag, [0x01]⟩))) ∧
    (s.sw.running = false → exec (.sweepStop tag) s = .next (a.deliver ⟨0x9D, tag, [0x13]⟩)) ∧
    (s.sw.running = true →
      let k := s.sw.axis
      let x := s.axis k
      exec (.sweepStop tag) s =
        .next
          ((({ a.setAxis k { x with active := { x.active with d := s.sw.savedD } } with
            sw := { s.sw with running := false, last := ⟨.aborted, k, s.sw.savedD, none, none, s.le.frameNo⟩ } } :
              State).offerUnasked
              ⟨0x49, 0, wordBytes s.le.frameNo ++ [1, byteOf (axisIndex k), 4, byteOf s.sw.savedD]⟩).deliver
            ⟨0x9D, tag, [0, byteOf (axisIndex k), byteOf s.sw.savedD]⟩))) ∧
  (∀ (s : State) (k : Axis) (n : Nat),
    (s.axis k).killPhase = .clear ∨ s.killAsserted = true ∧ (s.axis k).killPhase ≠ .awaiting → (s.axis k).launch = none →
    (s.computeAxis k n).1.sw =
      if s.sw.running = true ∧ s.sw.axis = k ∧ (s.axis k).mode = .hold ∧ (s.axis k).killPhase ≠ .paused ∧
          (s.si.sen.get (feedbackUnit k)).fresh = true then
        (s.countSweep (gyroTerm s k)).sw
      else s.sw) ∧
  (∀ (s : State) (g : Int), s.sw.running = true →
    let w := s.sw
    let k := w.axis
    let x := s.axis k
    let sum := min (w.sum + g.natAbs) 4294967295
    let results := w.results.set w.currentD (BitVec.ofNat 32 sum)
    let good (d : Nat) : Prop := w.dlo ≤ d ∧ d ≤ w.dhi ∧ (results.getD d 0).toNat ≤ w.q.toNat
    let ended (y : AxisRec) (outcome : SweepOutcome) (code : Byte) (d : Nat) (first last : Option Nat) : State :=
      ({ s.setAxis k y with
        sw :=
          { w with
            running := false, sum := sum, count := w.count + 1, results := results
            last := ⟨outcome, k, d, first, last, s.le.frameNo⟩ } } : State).offerUnasked
        ⟨0x49, 0, wordBytes s.le.frameNo ++ [1, byteOf (axisIndex k), code, byteOf d]⟩
    (w.count + 1 < w.wn → s.countSweep g = { s with sw := { w with sum := sum, count := w.count + 1 } }) ∧
    (w.wn ≤ w.count + 1 →
      (w.currentD < w.dhi →
        s.countSweep g =
          { s.setAxis k { x with active := { x.active with d := w.currentD + 1 } } with
            sw := { w with results := results, currentD := w.currentD + 1, count := 0, sum := 0 } }) ∧
      (w.dhi ≤ w.currentD →
        ((∀ d, ¬good d) →
          s.countSweep g = ended { x with active := { x.active with d := w.savedD } } .noWindow 3 w.savedD none none) ∧
        (∀ lo hi, good lo → good hi → (∀ d, good d → lo ≤ d ∧ d ≤ hi) →
          let mid := (lo + hi) / 2
          let y : AxisRec := { x with active := { x.active with d := mid }, staged := { x.staged with d := mid } }
          ((∀ d, lo ≤ d → d ≤ hi → good d) → s.countSweep g = ended y .done 1 mid (some lo) (some hi)) ∧
          (¬(∀ d, lo ≤ d → d ≤ hi → good d) → s.countSweep g = ended y .doneGapped 2 mid (some lo) (some hi))))))

/-- ALERT_CFG is refused whole, or its records are written in list order, a source's last record standing, and arbitration runs;
ALERT_CANCEL ends the pending state of the event and LATCHED sources it names and answers what is pending. -/
def Obligations.AlertConfigurationAndCancel : Prop :=
  ∀ (tag : Byte) (rs : List CfgRecord) (mask : Word) (s : State), Serving s → rs.length < 256 →
    let a := s.arrived
    let good (r : CfgRecord) : Prop :=
      r.source.toNat ≤ 25 ∧ (r.level = 1 ∨ r.level = 2) ∧ r.enable.toNat ≤ 1 ∧ r.kind.toNat ≤ 1 ∧
      ¬(r.kind = 0 ∧ ∃ src, isEvent src = true ∧ sourceNumber src = r.source.toNat)
    let fits := rs ≠ [] ∧ rs.length ≤ 26 ∧ ∀ r ∈ rs, good r
    (¬fits → exec (.alertCfg tag rs) s = .next (a.deliver ⟨0xA1, tag, [0x12]⟩)) ∧
    (fits →
      ∃ c : State, exec (.alertCfg tag rs) s = .next ((c.settle []).deliver ⟨0xA1, tag, [0]⟩) ∧
        c = { a with alc := { a.alc with sources := c.alc.sources } } ∧
        ∀ src,
          let x := s.source src
          let y := c.source src
          match (rs.filter (fun r => r.source.toNat = sourceNumber src)).getLast? with
          | none => y = x
          | some r =>
            y =
              { x with
                level := if r.level = 1 then .one else .two
                enable := decide (r.enable = 1)
                latched := decide (r.kind = 1)
                pending := if x.latched && !decide (r.kind = 1) then x.truth else x.pending }) ∧
    (2 ^ 26 ≤ mask.toNat → exec (.alertCancel tag mask) s = .next (a.deliver ⟨0xA4, tag, [0x12]⟩)) ∧
    (mask.toNat < 2 ^ 26 →
      ∃ c : State, exec (.alertCancel tag mask) s = .next (c.deliver (okReply 0x24 tag (wordBytes (pendingMask c)))) ∧
        c = { a with alc := { a.alc with sources := c.alc.sources } } ∧
        ∀ src,
          c.source src =
            { s.source src with
              pending := (s.source src).pending && !(mask.getLsbD (sourceNumber src) && (s.source src).latched) })

/-- ALERT_TEST holds its mask and parameter with TEST pending; TEST is then taken if it is enabled and its level can be taken: the
cause and link records are written, the action made (DAMP, or SAFE with the hold), the cues whose selector is ALERT of its level set, seen
set, the notice queued, the pending state cleared. At level 2 the hold comes first: no WAIT sees the cues, and a masked axis in an active
mode enters SAFE, its segment and launch aborted and reported to the waiting head, a sweep on it ended ABORTED with the saved D, the last
result and a notice before the taking's own. At level 1 the cues are tested against the head at once. A taking of any source sets the cues
of its level so. -/
def Obligations.AlertTestIsTaken : Prop :=
  (∀ (tag mask : Byte) (param : Half) (s : State), Serving s → (s.source .test).latched = true →
    let a := s.arrived
    let x := s.source .test
    let answer := exec (.alertTest tag mask param) s
    let reply : Frame := ⟨0xA3, tag, [0]⟩
    let frame := s.le.frameNo
    let notice (level : Byte) : Frame := ⟨0x48, 0, wordBytes frame ++ [level, 0, mask] ++ halfBytes param⟩
    let cues (level : Level) : Byte := s.ms.cues ||| cuesOf s.ms.cueSources (.alert level)
    (32 ≤ mask.toNat → answer = .next (a.deliver ⟨0xA3, tag, [0x12]⟩)) ∧
    (mask.toNat < 32 → x.enable = false ∨ s.alc.inService2 = true ∨ (x.level = .one ∧ s.alc.inService1 = true) →
      answer =
        .next
          (({ a with
            alc := { a.alc with testMask := mask.setWidth 5, sources := a.alc.sources.set .test { x with pending := true, param := param } } } :
              State).deliver reply)) ∧
    (mask.toNat < 32 → x.enable = true → s.alc.inService2 = false → x.level = .two →
      let enters (k : Axis) : Bool := mask.getLsbD (axisIndex k) && isActive (s.axis k).mode
      ∃ t : State, answer = .next (t.deliver reply) ∧
        t = { a with axes := t.axes, ms := t.ms, sw := t.sw, alc := t.alc, cl := t.cl } ∧
        t.alc.inService2 = true ∧ t.alc.cause2 = some ⟨.test, .two, mask.setWidth 5, param, frame⟩ ∧
        t.alc.link2 = some (s.axes.mapAxis (fun _ b => b.mode)) ∧ t.alc.seen2 = true ∧
        (t.source .test).pending = false ∧ t.alc.testMask = mask.setWidth 5 ∧
        t.ms = { s.ms with holdAlert := true, cues := cues .two, phase := t.ms.phase } ∧
        (∀ k,
          let b := s.axis k
          (enters k = true →
            t.axis k =
              { b with
                mode := .safe, jlock := b.j, segment := none, launch := none
                active := if sweeping s k then { b.active with d := s.sw.savedD } else b.active }) ∧
          (enters k = false → t.axis k = b)) ∧
        (∀ head rest out ab, s.ms.queue = head :: rest → s.ms.phase = .waitingSegments out ab →
          let gone (k : Axis) : Bool :=
            hasAxis out k && enters k &&
              (decide ((s.axis k).segment.map Segment.serial = some head.serial) ||
                decide ((s.axis k).launch.map Segment.serial = some head.serial))
          t.ms.phase = .waitingSegments (axisSetOf (fun k => hasAxis out k && !gone k)) (ab || allAxes.any gone)) ∧
        (s.ms.queue = [] ∨ (∀ out ab, s.ms.phase ≠ .waitingSegments out ab) → t.ms.phase = s.ms.phase) ∧
        (∀ k, enters k = true → sweeping s k = true →
          t.sw = { s.sw with running := false, last := ⟨.aborted, k, s.sw.savedD, none, none, frame⟩ } ∧
          t.cl =
            ((a.offerUnasked ⟨0x49, 0, wordBytes frame ++ [1, byteOf (axisIndex k), 4, byteOf s.sw.savedD]⟩).offerUnasked
              (notice 2)).cl) ∧
        ((∀ k, enters k = true → sweeping s k = false) → t.sw = s.sw ∧ t.cl = (a.offerUnasked (notice 2)).cl)) ∧
    (mask.toNat < 32 → x.enable = true → s.alc.inService2 = false → s.alc.inService1 = false → x.level = .one →
      ∃ t : State, answer = .next (t.deliver reply) ∧
        t.alc.inService1 = true ∧ (progress s = false → t.alc.inService2 = false) ∧
        t.alc.cause1 = some ⟨.test, .one, mask.setWidth 5, param, frame⟩ ∧
        t.alc.link1 = some (s.axes.mapAxis (fun _ b => b.damp)) ∧ t.alc.seen1 = true ∧ (t.source .test).pending = false ∧
        (∀ k,
          (t.axis k).damp = ((s.axis k).damp || mask.getLsbD (axisIndex k)) ∧
          (progress s = false → t.axis k = { s.axis k with damp := (t.axis k).damp })) ∧
        ((∀ n, s.ms.phase ≠ .waitingCue n) ∨ progress s = false →
          t = { a with axes := t.axes, ms := { s.ms with cues := cues .one }, alc := t.alc, cl := (a.offerUnasked (notice 1)).cl } ∧
          t.alc.inService2 = false ∧ ∀ k, t.axis k = { s.axis k with damp := (t.axis k).damp }))) ∧
  (∀ (s : State) (src : Source),
    let cues (level : Level) : Byte := s.ms.cues ||| cuesOf s.ms.cueSources (.alert level)
    (s.take .one src).ms = (s.changeCues (cues .one)).ms ∧
    (s.take .two src).ms = { s.ms with holdAlert := true, cues := cues .two, phase := (s.take .two src).ms.phase })

/-- RESOLVE of a level other than 1 and 2 is RANGE, of a level not in service STATE. Of level 1: the saved DAMP flags return and the
level is free. Of level 2: the axes it put in SAFE return to their saved modes with the captures, the truths are judged, and the level is
free; a level-2 source that waits is then taken at once, the hold standing and the head left alone; otherwise a level-1 source that waits
is taken if its level is free, and waits on where that level is in service; the hold goes and the head is taken up. That the hold stands
while level 2 is in service is an invariant of every step (EveryStepKeepsTimerAndPhase). -/
def Obligations.ResolveRestoresTheLinkRecord : Prop :=
  ∀ (tag : Byte) (s : State), Serving s →
    let a := s.arrived
    let quiet := ∀ src, ¬((s.source src).pending = true ∧ (s.source src).enable = true)
    (∀ x : Byte, x ≠ 1 → x ≠ 2 → exec (.goodFrame 0x22 tag [x]) s = .next (a.deliver ⟨0xA2, tag, [0x12]⟩)) ∧
    (s.alc.inService1 = false → exec (.resolveLevel1 tag) s = .next (a.deliver ⟨0xA2, tag, [0x13]⟩)) ∧
    (s.alc.inService2 = false → exec (.resolveLevel2 tag) s = .next (a.deliver ⟨0xA2, tag, [0x13]⟩)) ∧
    (∀ c saved, s.alc.inService1 = true → s.alc.cause1 = some c → s.alc.link1 = some saved →
      let damp (k : Axis) : Bool := if hasAxis c.mask k && (s.axis k).damp then saved.get k else (s.axis k).damp
      let freed : State :=
        { a with
          axes := s.axes.mapAxis (fun k x => { x with damp := damp k }), alc := { s.alc with inService1 := false } }
      exec (.resolveLevel1 tag) s =
        .next ((freed.settle []).deliver ⟨0xA2, tag, [0, (axisSetOf (fun k => (s.axis k).damp && !damp k)).setWidth 8]⟩) ∧
      (quiet → freed.settle [] = freed)) ∧
    (∀ c saved, s.alc.inService2 = true → s.alc.cause2 = some c → s.alc.link2 = some saved →
      let back (k : Axis) : Bool := hasAxis c.mask k && isActive (saved.get k) && decide ((s.axis k).mode = .safe)
      let mode (k : Axis) : Mode := if saved.get k = .move then .hold else saved.get k
      let axes : Five AxisRec :=
        s.axes.mapAxis
          (fun k x =>
            if back k then
              { x with
                mode := mode k, t := x.w, i := 0, uPrev := 0, rdEff := 0, rdTarget := 0, satFlag := .none, pinState := .none
                satCount := 0, pinCount := 0, coastCount := 0, o := if mode k = .follow then x.w - x.f else x.o }
            else x)
      let returned : State := { a with axes := axes }
      let judged := returned.refreshTruths
      let waits (l : Level) (src : Source) : Prop :=
        (judged.source src).pending = true ∧ (judged.source src).enable = true ∧ (judged.source src).level = l
      let lowest (l : Level) (src : Source) : Prop := waits l src ∧ ∀ q, waits l q → sourceNumber src ≤ sourceNumber q
      let reply : Frame := ⟨0xA2, tag, [0, (axisSetOf back).setWidth 8]⟩
      judged = { returned with alc := { s.alc with sources := judged.alc.sources } } ∧
      (∀ src,
        (judged.source src).truth = conditionTruth returned src ∧
        (judged.source src).pending =
          if conditionTruth returned src && !(s.source src).truth then true
          else if (s.source src).truth && !conditionTruth returned src then (s.source src).pending && (s.source src).latched
          else (s.source src).pending) ∧
      (s.ms.holdAlert = true →
        ((∀ src, ¬waits .two src) → (∀ src, ¬waits .one src) ∨ s.alc.inService1 = true →
          let freed : State :=
            { judged with ms := { s.ms with holdAlert := false }, alc := { judged.alc with inService2 := false } }
          exec (.resolveLevel2 tag) s = .next ((freed.settle []).deliver reply) ∧
          (s.ms.running = false → freed.settle [] = freed)) ∧
        (∀ src, lowest .two src →
          ∃ t : State, exec (.resolveLevel2 tag) s = .next (t.deliver reply) ∧
            t.alc.inService2 = true ∧ t.alc.inService1 = s.alc.inService1 ∧ t.alc.seen2 = true ∧ t.ms.holdAlert = true ∧
            (∃ param, t.alc.cause2 = some ⟨src, .two, affectedAxes judged src, param, s.le.frameNo⟩) ∧
            t.alc.link2 = some (axes.mapAxis (fun _ x => x.mode)) ∧
            (∀ k, hasAxis (affectedAxes judged src) k = true → isActive (axes.get k).mode = true →
              (t.axis k).mode = .safe ∧ (t.axis k).jlock = (s.axis k).j) ∧
            t.ms.queue = s.ms.queue ∧ t.ms.doneList = s.ms.doneList) ∧
        (∀ src, (∀ q, ¬waits .two q) → lowest .one src → s.alc.inService1 = false →
          ∃ t : State, exec (.resolveLevel2 tag) s = .next (((t.setHoldAlert false).settle []).deliver reply) ∧
            t.alc.inService2 = false ∧ t.alc.inService1 = true ∧ t.alc.seen1 = true ∧
            (∃ param, t.alc.cause1 = some ⟨src, .one, affectedAxes judged src, param, s.le.frameNo⟩) ∧
            t.alc.link1 = some (s.axes.mapAxis (fun _ x => x.damp)) ∧
            (∀ k, t.axis k = { axes.get k with damp := (s.axis k).damp || hasAxis (affectedAxes judged src) k }) ∧
            t.ms.queue = s.ms.queue ∧ t.ms.doneList = s.ms.doneList)))

/-! ### The Profile Store -/

/-- STORE_ARM, STORE_SAVE, STORE_ERASE and STORE_PROTECT: the first failing check decides the reply (an option of STORE_ARM other than 0
and 1 is RANGE, whatever the busy state), and an accepted operation marks
its slot PARTIAL, holds what it will write and starts its time. PROT_N is read at the request, as its operand (the model's choice:
notes/assumptions/9.md). -/
def Obligations.StoreWritingChecksInOrder : Prop :=
  ∀ (tag slot count freeze : Byte) (pin : Bool) (s : State), Serving s → Serving { s with protHigh := pin } →
    let a := s.arrived
    let p := s.ps
    let answer (b : State) (kind x : Byte) : Host.Outcome State Fault Refusal := .next (b.deliver ⟨kind, tag, [x]⟩)
    let latch (b : Bool) : State := { a with ps := { p with latch := b } }
    let begun (b : Busy) : State :=
      { a with
        ps :=
          { p with
            slots := p.slots.set slot.toNat { s.slot slot.toNat with state := .partly }, busy := b, busyElapsed := 0 } }
    (∀ option : Byte, 1 < option.toNat → exec (.goodFrame 0x28 tag [option]) s = answer a 0xA8 0x12) ∧
    exec (.storeArm tag) s = (if p.busy = .idle then answer (latch true) 0xA8 0 else answer a 0xA8 0x14) ∧
    exec (.storeDisarm tag) s = (if p.busy = .idle then answer (latch false) 0xA8 0 else answer a 0xA8 0x14) ∧
    exec (.storeSave tag slot) s =
      (if 7 < slot.toNat then answer a 0xA9 0x12
      else if p.busy ≠ .idle then answer a 0xA9 0x14
      else if p.latch = false then answer a 0xA9 0x18
      else if slot.toNat < p.protectCount then answer a 0xA9 0x17
      else if (s.slot slot.toNat).state ≠ .empty then answer a 0xA9 0x19
      else answer (begun (.saving slot.toNat (capturedImage s))) 0xA9 0x01) ∧
    exec (.storeErase tag slot) s =
      (if 7 < slot.toNat then answer a 0xAA 0x12
      else if p.busy ≠ .idle then answer a 0xAA 0x14
      else if p.latch = false then answer a 0xAA 0x18
      else if slot.toNat < p.protectCount then answer a 0xAA 0x17
      else answer (begun (.erasing slot.toNat)) 0xAA 0x01) ∧
    exec (.storeProtect tag count freeze pin) s =
      (let b : State := { a with protHigh := pin }
       if 8 < count.toNat ∨ 1 < freeze.toNat then answer b 0xAD 0x12
       else if p.busy ≠ .idle then answer b 0xAD 0x14
       else if p.latch = false then answer b 0xAD 0x18
       else if p.freeze = true ∧ pin = false then answer b 0xAD 0x17
       else answer { b with ps := { p with busy := .protecting count.toNat (decide (freeze = 1)), busyElapsed := 0 } } 0xAD 0x01)

/-- STORE_LOAD is refused with RANGE, BUSY or STATE in that order; an image without bad words is applied and answered OK with count
0; with bad words the parity flag, the last bad location and STORE_PARITY, with what its taking brings about, come first (DEDUCED,
notes/assumptions/19.md), and strictLoad decides whether the image is applied. Applying it writes every part to its owner and then lets
the alerts and the head react: the staged records with swapPending, the active ones staying; the waypoints of the unlocked pages, whose
locks follow; the alert configuration; the cue table, written with the rest before the reaction (DESIGN CHOICE, notes/assumptions/29.md);
the setup record, whose limits are in force at once. A loaded tuning record takes each int32 value clamped into its field's range, N, the
sign and the fields of two named values by the cases of R190, Udamp and Usafe within 0..Umax, and Jmin below Jmax. -/
def Obligations.StoreLoadChecksParity : Prop :=
  (∀ (tag slot : Byte) (s : State), Serving s →
    let a := s.arrived
    let img := (s.slot slot.toNat).image
    let bad := (List.range 1046).filter (fun i => badWord (img.read i))
    let request := exec (.storeLoad tag slot) s
    (7 < slot.toNat → request = .next (a.deliver ⟨0xAB, tag, [0x12]⟩)) ∧
    (slot.toNat ≤ 7 → s.ps.busy ≠ .idle → request = .next (a.deliver ⟨0xAB, tag, [0x14]⟩)) ∧
    (slot.toNat ≤ 7 → s.ps.busy = .idle → (s.slot slot.toNat).state ≠ .valid →
      request = .next (a.deliver ⟨0xAB, tag, [0x13]⟩)) ∧
    (slot.toNat ≤ 7 → s.ps.busy = .idle → (s.slot slot.toNat).state = .valid →
      (bad = [] →
        request = .next ((a.applyImage img).deliver ⟨0xAB, tag, [0, 0, 0]⟩) ∧
        ∀ k, ((a.applyImage img).axis k).staged.ok = true ∧ ((a.applyImage img).axis k).swapPending = true ∧
          (s.sw.running = false → ((a.applyImage img).axis k).active = (s.axis k).active)) ∧
      (∀ last, bad.getLast? = some last →
        let t : State :=
          ({ a with ps := { s.ps with parityFlag := true, lastBad := some (slot.toNat, last) } } : State).settle
            [.raised .storeParity (BitVec.ofNat 16 slot.toNat)]
        request =
          .next
            (if s.cl.setup.strictLoad then t.deliver ⟨0xAB, tag, 0x1B :: halfBytes (BitVec.ofNat 16 bad.length)⟩
            else (t.applyImage img).deliver ⟨0xAB, tag, 0x02 :: halfBytes (BitVec.ofNat 16 bad.length)⟩)))) ∧
  (∀ (s : State) (img : Image),
    let w := s.writeImage img
    let setup := loadedSetup img
    let silent : Bool := decide (s.cl.silence = .running ∧ 32000 * setup.silenceLimit ≤ s.cl.silenceElapsed)
    let limit (u : SenUnit) : Nat := 15625 * setup.staleLimit.get u
    s.applyImage img = w.settle [] ∧
    (∀ k, let x := s.axis k
      w.axis k =
        { x with
          staged := loadedTuning img (axisIndex k), swapPending := true
          rdTarget := if silent = true ∧ x.mode = .rate then 0 else x.rdTarget }) ∧
    (∀ i old, s.ms.waypoints[i]? = some old →
      w.ms.waypoints[i]? = some (if s.ms.locks.getLsbD (i / 16) then old else loadedWaypoint img i)) ∧
    (∀ p, p < 4 → w.ms.locks.getLsbD p = (s.ms.locks.getLsbD p || (img.read 1004).data.getLsbD p)) ∧
    (∀ src, let x := s.source src
      let c := loadedConfig img src
      let latched := c.latched || isEvent src
      w.source src =
        { x with
          level := c.level, enable := c.enable, latched := latched
          pending := if x.latched && !latched then x.truth else x.pending }) ∧
    w.cl =
      { s.cl with
        setup := setup
        silence := if silent then .expired else s.cl.silence
        silenceElapsed := if silent then 0 else s.cl.silenceElapsed } ∧
    (∀ u, let p := s.si.sen.get u
      w.si.sen.get u = if p.fresh = true ∧ limit u ≤ p.elapsed then { p with fresh := false, elapsed := 0 } else p) ∧
    (∀ k, let e := s.si.enc.get k
      w.si.enc.get k =
        if e.fresh = true ∧ limit (if k = .swing ∨ k = .lift then .tip else .head) ≤ e.elapsed then
          { e with fresh := false, elapsed := 0 }
        else e) ∧
    w.ms = { s.ms with waypoints := w.ms.waypoints, locks := w.ms.locks, cueSources := loadedTable img } ∧
    w.ms.waypoints.length = s.ms.waypoints.length ∧
    w = { s with axes := w.axes, ms := w.ms, cl := w.cl, si := w.si, alc := { s.alc with sources := w.alc.sources } }) ∧
  (∀ (img : Image) (q : Nat),
    let v (f : Nat) : Int := ((img.read (60 * q + 2 * f)).data ++ (img.read (60 * q + 2 * f + 1)).data).toInt
    let r := loadedTuning img q
    let within (x lo hi : Int) : Int := max lo (min x hi)
    let ranges : List (Nat × Int × Int) :=
      [(0, 0, 65535), (1, 0, 65535), (2, 0, 65535), (3, 0, 65535), (5, 0, 63), (7, 1, 2000), (9, 1, 2000), (10, 0, 1073741824),
       (11, 1, 32767), (12, 1, 32767), (15, 1, 65535), (16, 1, 65535), (17, 4, 16), (18, 6, 16), (19, 1, 65535), (20, 1, 65535),
       (22, 0, 65535), (25, 0, 255), (26, -2147483648, 2147483647), (29, -1024, 1023)]
    (∀ x ∈ ranges, r.field x.1 = within (v x.1) x.2.1 x.2.2) ∧
    r.ffSign = (if v 4 < 0 then -1 else 1) ∧ r.n = (if 8 ≤ v 6 then 8 else if 4 ≤ v 6 then 4 else if 2 ≤ v 6 then 2 else 1) ∧
    r.killTiming = (if v 23 = 0 then .immediate else .next) ∧ r.killEffect = (if v 24 = 0 then .halt else .pause) ∧
    r.markUp = decide (v 27 = 0) ∧ r.markDown = decide (v 28 = 0) ∧
    (r.udamp : Int) = within (v 8) 0 r.umax ∧ (r.usafe : Int) = within (v 21) 0 r.umax ∧
    (v 13 < v 14 → r.jmin = v 13 ∧ r.jmax = v 14) ∧
    (v 14 ≤ v 13 → v 13 ≠ 2147483647 → r.jmin = v 13 ∧ r.jmax = v 13 + 1) ∧
    (v 14 ≤ v 13 → v 13 = 2147483647 → r.jmin = 2147483646 ∧ r.jmax = 2147483647))

/-- An image captured from values in their ranges has no bad word, and loading it gives back what was captured: the active tuning
of each axis, the waypoints, the locks, the alert configuration, the cue table and the setup record. That an image holds 0 for a mark
direction that is on, as R190 reads it back, so that the directions come back as captured, is DEDUCED (notes/assumptions/31.md). -/
def Obligations.CapturedProfileLoadsBack : Prop :=
  ∀ s : State, (∀ k, (s.axis k).active.ok = true) → s.ms.waypoints.length = 64 → s.ms.cueSources.length = 8 →
    (∀ src, isEvent src = true → (s.source src).latched = true) →
    (let x := s.cl.setup
     20 ≤ x.silenceLimit ∧ x.silenceLimit ≤ 2000 ∧
       (∀ u, 1 ≤ x.staleLimit.get u ∧ x.staleLimit.get u ≤ 64) ∧ 10 ≤ x.gravBand ∧ x.gravBand ≤ 500 ∧
       1 ≤ x.driverMissLimit ∧ x.driverMissLimit ≤ 15) →
    let img := capturedImage s
    (∀ i, badWord (img.read i) = false) ∧
    (∀ k, loadedTuning img (axisIndex k) = (s.axis k).active) ∧
    (∀ i w, s.ms.waypoints[i]? = some w → loadedWaypoint img i = w) ∧
    (img.read 1004).data.setWidth 4 = s.ms.locks ∧
    (∀ src, loadedConfig img src = ⟨src, (s.source src).level, (s.source src).enable, (s.source src).latched⟩) ∧
    loadedTable img = s.ms.cueSources ∧ loadedSetup img = s.cl.setup

/-- The completion of the operation in progress: the slot VALID with the captured image, or EMPTY with every word 0, or the new
protect setting in force; the latch clear, the store IDLE, and an OP_DONE notice offered. On an IDLE store, and of an operation other than
the one in progress, a completion changes nothing (DEDUCED, notes/assumptions/4.md). The completion comes when it is commanded: the
model's choice (notes/assumptions/3.md). -/
def Obligations.StoreCompletions : Prop :=
  ∀ s : State,
    let p := s.ps
    let idle (q : Store) : State := { s with ps := { q with busy := .idle, busyElapsed := 0, latch := false } }
    let notice (op : Byte) (x y : Byte) : Frame := ⟨0x49, 0, wordBytes s.le.frameNo ++ [op, x, y, 0]⟩
    (∀ k img, p.busy = .saving k img →
      exec .saveCompletion s =
        .next ((idle { p with slots := p.slots.set k ⟨.valid, img⟩ }).offerUnasked (notice 2 (byteOf k) 0))) ∧
    (∀ k, p.busy = .erasing k →
      exec .eraseCompletion s =
        .next ((idle { p with slots := p.slots.set k ⟨.empty, []⟩ }).offerUnasked (notice 3 (byteOf k) 0)) ∧
      ∀ i, Image.read [] i = ⟨0, true, true⟩) ∧
    (∀ count freeze, p.busy = .protecting count freeze →
      exec .protectCompletion s =
        .next
          ((idle { p with protectCount := count, freeze := freeze }).offerUnasked
            (notice 4 (byteOf count) (if freeze then 1 else 0)))) ∧
    ((∀ k img, p.busy ≠ .saving k img) → exec .saveCompletion s = .next s) ∧
    ((∀ k, p.busy ≠ .erasing k) → exec .eraseCompletion s = .next s) ∧
    ((∀ count freeze, p.busy ≠ .protecting count freeze) → exec .protectCompletion s = .next s)

/-! ### Park -/

/-- PARK is refused with STATE while anything moves or is in progress, and otherwise brakes the links, closes the sensor ports and
stops the frame timer; UNPARK reopens them stale and starts the timer; the settling period's end makes the park state RUNNING. That end
comes when it is commanded: the model's choice (notes/assumptions/3.md); outside UNPARKING it changes nothing (DEDUCED,
notes/assumptions/4.md). -/
def Obligations.ParkAndUnpark : Prop :=
  ∀ (tag : Byte) (s : State),
    let a := s.arrived
    let closed : SensorIntake :=
      { sen := s.si.sen.mapUnit (fun _ p => { p with held := [] }), enc := s.si.enc.mapAxis (fun _ p => { p with held := [] }) }
    let reopened : SensorIntake :=
      { sen := s.si.sen.mapUnit (fun _ p => { p with held := [], fresh := false, elapsed := 0, seqRef := none })
        enc := s.si.enc.mapAxis (fun _ p => { p with held := [], fresh := false, elapsed := 0 }) }
    let still : Prop :=
      s.le.park = .running ∧ (∀ k, (s.axis k).mode = .off ∨ (s.axis k).mode = .stopped) ∧ s.ms.running = false ∧
      s.sw.running = false ∧ s.ps.busy = .idle
    (Serving s → still →
      exec (.park tag) s =
        .next
          (({ a with
            si := closed
            dl := s.dl.mapAxis (fun _ l => l.hand ⟨.brake, false, 2048⟩)
            le := { s.le with park := .parked, frameTimer := false, frameElapsed := 0 } } : State).deliver ⟨0xB0, tag, [0]⟩)) ∧
    (Serving s → ¬still → exec (.park tag) s = .next (a.deliver ⟨0xB0, tag, [0x13]⟩)) ∧
    (LinkReady s → s.le.park = .parked →
      exec (.park tag) s = .next (a.deliver ⟨0xB0, tag, [0x1A]⟩) ∧
      exec (.unpark tag) s =
        .next
          ((({ a with
            si := reopened
            le := { s.le with park := .unparking, settleElapsed := 0, frameTimer := !s.le.halted, frameElapsed := 0 } } :
              State).settle []).deliver ⟨0xB1, tag, [0x01]⟩)) ∧
    (LinkReady s → s.le.park ≠ .parked → exec (.unpark tag) s = .next (a.deliver ⟨0xB1, tag, [0x13]⟩)) ∧
    (s.le.park = .unparking →
      exec .unparkSettlingEnd s =
        .next
          (({ s with le := { s.le with park := .running, settleElapsed := 0 } } : State).offerUnasked
            ⟨0x49, 0, wordBytes s.le.frameNo ++ [5, 0, 0, 0]⟩)) ∧
    (s.le.park ≠ .unparking → exec .unparkSettlingEnd s = .next s)

/-- REPORT_PLAN refuses a set beyond the three kinds, keeps an interval of 0, brings any other into 8..2048, and answers the plan as
stored. -/
def Obligations.ReportPlanIsClamped : Prop :=
  ∀ (tag set : Byte) (interval : Half) (s : State), Serving s →
    let a := s.arrived
    let n := interval.toNat
    let kept : Nat := if n = 0 then 0 else if n < 8 then 8 else if 2048 < n then 2048 else n
    (8 ≤ set.toNat → exec (.reportPlan tag set interval) s = .next (a.deliver ⟨0xB4, tag, [0x12]⟩)) ∧
    (set.toNat < 8 →
      exec (.reportPlan tag set interval) s =
        .next
          (({ a with cl := { a.cl with planSet := set.setWidth 3, planInterval := kept } } : State).deliver
            (okReply 0x34 tag (set :: halfBytes (BitVec.ofNat 16 kept)))))

/-! ### The whole machine -/

/-- Every step from rest ends at rest: no enabled pending source is left waiting while its level can be taken, no change of a
condition is left unrecorded, and the head is never left able to move. -/
def Obligations.EveryStepEndsAtRest : Prop :=
  ∀ s t : State, AtRest s → step s = .next t → AtRest t

/-- The queues, lists and tables keep their sizes, and the store's images their canonical form, at every step. -/
def Obligations.EveryStepKeepsSizes : Prop :=
  ∀ s t : State, Bounded s → step s = .next t → Bounded t

/-- Every tuning record stays within the ranges of R32, I and the rates within the active bounds, every demand within ±Umax, and D
within 0..63, at every step. -/
def Obligations.EveryStepKeepsRanges : Prop :=
  ∀ s t : State, InRange s → step s = .next t → InRange t

/-- The frame timer runs exactly when the park state and the halted flag say so, the head phase is NONE exactly when the queue is
empty, the hold set is the kill level and level 2's service, and a level in service has its cause and link records: every step keeps
them. -/
def Obligations.EveryStepKeepsTimerAndPhase : Prop :=
  ∀ s t : State, Coherent s → step s = .next t → Coherent t

/-- The state after reset meets every invariant, is at rest and ready for a request. The pins' levels and the first contents of the
store are the model's choice (notes/assumptions/8.md, 9.md, 10.md). -/
def Obligations.ResetMeetsTheInvariants : Prop :=
  Serving State.reset ∧ Bounded State.reset ∧ InRange State.reset ∧ Coherent State.reset ∧ DriveHeldBack State.reset

/-- A request's bytes, read by the dispatcher's first two tests, give back the request, with every field at every value. -/
def Obligations.RequestBytesReadBack : Prop :=
  ∀ r : Request, r.wf = true → parseRequest r.kind r.payload = .request r

end
end

