-- ==== Sys2Proof/Laws/State.lean ====
section
/-! SUPPORT. One lemma per field per update of State, true by rfl, so that no later proof unfolds a record update. -/

namespace Sys2Proof.Machine

/-! ### Items per axis and per unit -/

@[simp] theorem Five.get_set_same {α : Type} (x : Five α) (k : Axis) (v : α) : (x.set k v).get k = v := by cases k <;> rfl

theorem Five.get_set_other {α : Type} (x : Five α) {k j : Axis} (v : α) (h : j ≠ k) : (x.set k v).get j = x.get j := by
  cases k <;> cases j <;> first | rfl | exact absurd rfl h

theorem Five.get_set {α : Type} (x : Five α) (k j : Axis) (v : α) : (x.set k v).get j = if j = k then v else x.get j := by
  cases k <;> cases j <;> rfl

@[simp] theorem Five.get_mapAxis {α β : Type} (g : Axis → α → β) (x : Five α) (k : Axis) :
    (x.mapAxis g).get k = g k (x.get k) := by cases k <;> rfl

@[simp] theorem Five.get_all {α : Type} (v : α) (k : Axis) : (Five.all v).get k = v := by cases k <;> rfl

@[simp] theorem Three.get_set_same {α : Type} (x : Three α) (u : SenUnit) (v : α) : (x.set u v).get u = v := by
  cases u <;> rfl

theorem Three.get_set {α : Type} (x : Three α) (u j : SenUnit) (v : α) : (x.set u v).get j = if j = u then v else x.get j := by
  cases u <;> cases j <;> rfl

@[simp] theorem Three.get_mapUnit {α β : Type} (g : SenUnit → α → β) (x : Three α) (u : SenUnit) :
    (x.mapUnit g).get u = g u (x.get u) := by cases u <;> rfl

@[simp] theorem Sources.get_set_same {α : Type} (x : Sources α) (src : Source) (v : α) : (x.set src v).get src = v := by
  cases src <;> simp [Sources.get, Sources.set]

@[simp] theorem State.axis_setAxis_same (s : State) (k : Axis) (a : AxisRec) : (s.setAxis k a).axis k = a := by
  simp [State.axis, State.setAxis]

theorem State.axis_setAxis (s : State) (k j : Axis) (a : AxisRec) : (s.setAxis k a).axis j = if j = k then a else s.axis j := by
  simp [State.axis, State.setAxis, Five.get_set]

/-! ### The updates -/

section
variable (s : State)

@[simp] theorem State.setAxis_si (k : Axis) (a : AxisRec) : (s.setAxis k a).si = s.si := rfl
@[simp] theorem State.setAxis_axes (k : Axis) (a : AxisRec) : (s.setAxis k a).axes = s.axes.set k a := rfl
@[simp] theorem State.setAxis_le (k : Axis) (a : AxisRec) : (s.setAxis k a).le = s.le := rfl
@[simp] theorem State.setAxis_ms (k : Axis) (a : AxisRec) : (s.setAxis k a).ms = s.ms := rfl
@[simp] theorem State.setAxis_sw (k : Axis) (a : AxisRec) : (s.setAxis k a).sw = s.sw := rfl
@[simp] theorem State.setAxis_dl (k : Axis) (a : AxisRec) : (s.setAxis k a).dl = s.dl := rfl
@[simp] theorem State.setAxis_killAsserted (k : Axis) (a : AxisRec) : (s.setAxis k a).killAsserted = s.killAsserted := rfl
@[simp] theorem State.setAxis_alc (k : Axis) (a : AxisRec) : (s.setAxis k a).alc = s.alc := rfl
@[simp] theorem State.setAxis_cl (k : Axis) (a : AxisRec) : (s.setAxis k a).cl = s.cl := rfl
@[simp] theorem State.setAxis_ps (k : Axis) (a : AxisRec) : (s.setAxis k a).ps = s.ps := rfl
@[simp] theorem State.setAxis_protHigh (k : Axis) (a : AxisRec) : (s.setAxis k a).protHigh = s.protHigh := rfl
@[simp] theorem State.setAxis_pending (k : Axis) (a : AxisRec) : (s.setAxis k a).pending = s.pending := rfl
@[simp] theorem State.setAxis_schedule (k : Axis) (a : AxisRec) : (s.setAxis k a).schedule = s.schedule := rfl
@[simp] theorem State.setAxis_freeCount (k : Axis) (a : AxisRec) : (s.setAxis k a).freeCount = s.freeCount := rfl

@[simp] theorem State.setSen_si (u : SenUnit) (p : InertialPort) : (s.setSen u p).si = { s.si with sen := s.si.sen.set u p } :=
  rfl
@[simp] theorem State.setSen_axes (u : SenUnit) (p : InertialPort) : (s.setSen u p).axes = s.axes := rfl
@[simp] theorem State.setSen_le (u : SenUnit) (p : InertialPort) : (s.setSen u p).le = s.le := rfl
@[simp] theorem State.setSen_ms (u : SenUnit) (p : InertialPort) : (s.setSen u p).ms = s.ms := rfl
@[simp] theorem State.setSen_sw (u : SenUnit) (p : InertialPort) : (s.setSen u p).sw = s.sw := rfl
@[simp] theorem State.setSen_dl (u : SenUnit) (p : InertialPort) : (s.setSen u p).dl = s.dl := rfl
@[simp] theorem State.setSen_killAsserted (u : SenUnit) (p : InertialPort) : (s.setSen u p).killAsserted = s.killAsserted := rfl
@[simp] theorem State.setSen_alc (u : SenUnit) (p : InertialPort) : (s.setSen u p).alc = s.alc := rfl
@[simp] theorem State.setSen_cl (u : SenUnit) (p : InertialPort) : (s.setSen u p).cl = s.cl := rfl
@[simp] theorem State.setSen_ps (u : SenUnit) (p : InertialPort) : (s.setSen u p).ps = s.ps := rfl
@[simp] theorem State.setSen_protHigh (u : SenUnit) (p : InertialPort) : (s.setSen u p).protHigh = s.protHigh := rfl
@[simp] theorem State.setSen_pending (u : SenUnit) (p : InertialPort) : (s.setSen u p).pending = s.pending := rfl
@[simp] theorem State.setSen_schedule (u : SenUnit) (p : InertialPort) : (s.setSen u p).schedule = s.schedule := rfl
@[simp] theorem State.setSen_freeCount (u : SenUnit) (p : InertialPort) : (s.setSen u p).freeCount = s.freeCount := rfl

@[simp] theorem State.setEnc_si (k : Axis) (p : EncoderPort) : (s.setEnc k p).si = { s.si with enc := s.si.enc.set k p } := rfl
@[simp] theorem State.setEnc_axes (k : Axis) (p : EncoderPort) : (s.setEnc k p).axes = s.axes := rfl
@[simp] theorem State.setEnc_le (k : Axis) (p : EncoderPort) : (s.setEnc k p).le = s.le := rfl
@[simp] theorem State.setEnc_ms (k : Axis) (p : EncoderPort) : (s.setEnc k p).ms = s.ms := rfl
@[simp] theorem State.setEnc_sw (k : Axis) (p : EncoderPort) : (s.setEnc k p).sw = s.sw := rfl
@[simp] theorem State.setEnc_dl (k : Axis) (p : EncoderPort) : (s.setEnc k p).dl = s.dl := rfl
@[simp] theorem State.setEnc_killAsserted (k : Axis) (p : EncoderPort) : (s.setEnc k p).killAsserted = s.killAsserted := rfl
@[simp] theorem State.setEnc_alc (k : Axis) (p : EncoderPort) : (s.setEnc k p).alc = s.alc := rfl
@[simp] theorem State.setEnc_cl (k : Axis) (p : EncoderPort) : (s.setEnc k p).cl = s.cl := rfl
@[simp] theorem State.setEnc_ps (k : Axis) (p : EncoderPort) : (s.setEnc k p).ps = s.ps := rfl
@[simp] theorem State.setEnc_protHigh (k : Axis) (p : EncoderPort) : (s.setEnc k p).protHigh = s.protHigh := rfl
@[simp] theorem State.setEnc_pending (k : Axis) (p : EncoderPort) : (s.setEnc k p).pending = s.pending := rfl
@[simp] theorem State.setEnc_schedule (k : Axis) (p : EncoderPort) : (s.setEnc k p).schedule = s.schedule := rfl
@[simp] theorem State.setEnc_freeCount (k : Axis) (p : EncoderPort) : (s.setEnc k p).freeCount = s.freeCount := rfl

@[simp] theorem State.setLink_si (k : Axis) (l : DriveLink) : (s.setLink k l).si = s.si := rfl
@[simp] theorem State.setLink_axes (k : Axis) (l : DriveLink) : (s.setLink k l).axes = s.axes := rfl
@[simp] theorem State.setLink_le (k : Axis) (l : DriveLink) : (s.setLink k l).le = s.le := rfl
@[simp] theorem State.setLink_ms (k : Axis) (l : DriveLink) : (s.setLink k l).ms = s.ms := rfl
@[simp] theorem State.setLink_sw (k : Axis) (l : DriveLink) : (s.setLink k l).sw = s.sw := rfl
@[simp] theorem State.setLink_dl (k : Axis) (l : DriveLink) : (s.setLink k l).dl = s.dl.set k l := rfl
@[simp] theorem State.setLink_killAsserted (k : Axis) (l : DriveLink) : (s.setLink k l).killAsserted = s.killAsserted := rfl
@[simp] theorem State.setLink_alc (k : Axis) (l : DriveLink) : (s.setLink k l).alc = s.alc := rfl
@[simp] theorem State.setLink_cl (k : Axis) (l : DriveLink) : (s.setLink k l).cl = s.cl := rfl
@[simp] theorem State.setLink_ps (k : Axis) (l : DriveLink) : (s.setLink k l).ps = s.ps := rfl
@[simp] theorem State.setLink_protHigh (k : Axis) (l : DriveLink) : (s.setLink k l).protHigh = s.protHigh := rfl
@[simp] theorem State.setLink_pending (k : Axis) (l : DriveLink) : (s.setLink k l).pending = s.pending := rfl
@[simp] theorem State.setLink_schedule (k : Axis) (l : DriveLink) : (s.setLink k l).schedule = s.schedule := rfl
@[simp] theorem State.setLink_freeCount (k : Axis) (l : DriveLink) : (s.setLink k l).freeCount = s.freeCount := rfl

@[simp] theorem State.handWord_si (k : Axis) (w : DriveWord) : (s.handWord k w).si = s.si := rfl
@[simp] theorem State.handWord_axes (k : Axis) (w : DriveWord) : (s.handWord k w).axes = s.axes := rfl
@[simp] theorem State.handWord_le (k : Axis) (w : DriveWord) : (s.handWord k w).le = s.le := rfl
@[simp] theorem State.handWord_ms (k : Axis) (w : DriveWord) : (s.handWord k w).ms = s.ms := rfl
@[simp] theorem State.handWord_sw (k : Axis) (w : DriveWord) : (s.handWord k w).sw = s.sw := rfl
@[simp] theorem State.handWord_dl (k : Axis) (w : DriveWord) : (s.handWord k w).dl = s.dl.set k ((s.dl.get k).hand w) := rfl
@[simp] theorem State.handWord_killAsserted (k : Axis) (w : DriveWord) : (s.handWord k w).killAsserted = s.killAsserted := rfl
@[simp] theorem State.handWord_alc (k : Axis) (w : DriveWord) : (s.handWord k w).alc = s.alc := rfl
@[simp] theorem State.handWord_cl (k : Axis) (w : DriveWord) : (s.handWord k w).cl = s.cl := rfl
@[simp] theorem State.handWord_ps (k : Axis) (w : DriveWord) : (s.handWord k w).ps = s.ps := rfl
@[simp] theorem State.handWord_protHigh (k : Axis) (w : DriveWord) : (s.handWord k w).protHigh = s.protHigh := rfl
@[simp] theorem State.handWord_pending (k : Axis) (w : DriveWord) : (s.handWord k w).pending = s.pending := rfl
@[simp] theorem State.handWord_schedule (k : Axis) (w : DriveWord) : (s.handWord k w).schedule = s.schedule := rfl
@[simp] theorem State.handWord_freeCount (k : Axis) (w : DriveWord) : (s.handWord k w).freeCount = s.freeCount := rfl

@[simp] theorem State.pushTx_si (f : Frame) : (s.pushTx f).si = s.si := rfl
@[simp] theorem State.pushTx_axes (f : Frame) : (s.pushTx f).axes = s.axes := rfl
@[simp] theorem State.pushTx_le (f : Frame) : (s.pushTx f).le = s.le := rfl
@[simp] theorem State.pushTx_ms (f : Frame) : (s.pushTx f).ms = s.ms := rfl
@[simp] theorem State.pushTx_sw (f : Frame) : (s.pushTx f).sw = s.sw := rfl
@[simp] theorem State.pushTx_dl (f : Frame) : (s.pushTx f).dl = s.dl := rfl
@[simp] theorem State.pushTx_killAsserted (f : Frame) : (s.pushTx f).killAsserted = s.killAsserted := rfl
@[simp] theorem State.pushTx_alc (f : Frame) : (s.pushTx f).alc = s.alc := rfl
@[simp] theorem State.pushTx_cl (f : Frame) : (s.pushTx f).cl = { s.cl with txQueue := s.cl.txQueue ++ [f] } := rfl
@[simp] theorem State.pushTx_ps (f : Frame) : (s.pushTx f).ps = s.ps := rfl
@[simp] theorem State.pushTx_protHigh (f : Frame) : (s.pushTx f).protHigh = s.protHigh := rfl
@[simp] theorem State.pushTx_pending (f : Frame) : (s.pushTx f).pending = s.pending := rfl
@[simp] theorem State.pushTx_schedule (f : Frame) : (s.pushTx f).schedule = s.schedule := rfl
@[simp] theorem State.pushTx_freeCount (f : Frame) : (s.pushTx f).freeCount = s.freeCount := rfl

@[simp] theorem State.brakeAll_si : (s.brakeAll).si = s.si := rfl
@[simp] theorem State.brakeAll_axes : (s.brakeAll).axes = s.axes := rfl
@[simp] theorem State.brakeAll_le : (s.brakeAll).le = s.le := rfl
@[simp] theorem State.brakeAll_ms : (s.brakeAll).ms = s.ms := rfl
@[simp] theorem State.brakeAll_sw : (s.brakeAll).sw = s.sw := rfl
@[simp] theorem State.brakeAll_dl : (s.brakeAll).dl = s.dl.mapAxis (fun _ l => l.hand (brakeWord false)) := rfl
@[simp] theorem State.brakeAll_killAsserted : (s.brakeAll).killAsserted = s.killAsserted := rfl
@[simp] theorem State.brakeAll_alc : (s.brakeAll).alc = s.alc := rfl
@[simp] theorem State.brakeAll_cl : (s.brakeAll).cl = s.cl := rfl
@[simp] theorem State.brakeAll_ps : (s.brakeAll).ps = s.ps := rfl
@[simp] theorem State.brakeAll_protHigh : (s.brakeAll).protHigh = s.protHigh := rfl
@[simp] theorem State.brakeAll_pending : (s.brakeAll).pending = s.pending := rfl
@[simp] theorem State.brakeAll_schedule : (s.brakeAll).schedule = s.schedule := rfl
@[simp] theorem State.brakeAll_freeCount : (s.brakeAll).freeCount = s.freeCount := rfl

@[simp] theorem State.setPhase_si (p : HeadPhase) : (s.setPhase p).si = s.si := rfl
@[simp] theorem State.setPhase_axes (p : HeadPhase) : (s.setPhase p).axes = s.axes := rfl
@[simp] theorem State.setPhase_le (p : HeadPhase) : (s.setPhase p).le = s.le := rfl
@[simp] theorem State.setPhase_ms (p : HeadPhase) : (s.setPhase p).ms = { s.ms with phase := p } := rfl
@[simp] theorem State.setPhase_sw (p : HeadPhase) : (s.setPhase p).sw = s.sw := rfl
@[simp] theorem State.setPhase_dl (p : HeadPhase) : (s.setPhase p).dl = s.dl := rfl
@[simp] theorem State.setPhase_killAsserted (p : HeadPhase) : (s.setPhase p).killAsserted = s.killAsserted := rfl
@[simp] theorem State.setPhase_alc (p : HeadPhase) : (s.setPhase p).alc = s.alc := rfl
@[simp] theorem State.setPhase_cl (p : HeadPhase) : (s.setPhase p).cl = s.cl := rfl
@[simp] theorem State.setPhase_ps (p : HeadPhase) : (s.setPhase p).ps = s.ps := rfl
@[simp] theorem State.setPhase_protHigh (p : HeadPhase) : (s.setPhase p).protHigh = s.protHigh := rfl
@[simp] theorem State.setPhase_pending (p : HeadPhase) : (s.setPhase p).pending = s.pending := rfl
@[simp] theorem State.setPhase_schedule (p : HeadPhase) : (s.setPhase p).schedule = s.schedule := rfl
@[simp] theorem State.setPhase_freeCount (p : HeadPhase) : (s.setPhase p).freeCount = s.freeCount := rfl

@[simp] theorem State.setSource_si (src : Source) (x : SourceState) : (s.setSource src x).si = s.si := rfl
@[simp] theorem State.setSource_axes (src : Source) (x : SourceState) : (s.setSource src x).axes = s.axes := rfl
@[simp] theorem State.setSource_le (src : Source) (x : SourceState) : (s.setSource src x).le = s.le := rfl
@[simp] theorem State.setSource_ms (src : Source) (x : SourceState) : (s.setSource src x).ms = s.ms := rfl
@[simp] theorem State.setSource_sw (src : Source) (x : SourceState) : (s.setSource src x).sw = s.sw := rfl
@[simp] theorem State.setSource_dl (src : Source) (x : SourceState) : (s.setSource src x).dl = s.dl := rfl
@[simp] theorem State.setSource_killAsserted (src : Source) (x : SourceState) : (s.setSource src x).killAsserted = s.killAsserted :=
  rfl
@[simp] theorem State.setSource_alc (src : Source) (x : SourceState) :
    (s.setSource src x).alc = { s.alc with sources := s.alc.sources.set src x } := rfl
@[simp] theorem State.setSource_cl (src : Source) (x : SourceState) : (s.setSource src x).cl = s.cl := rfl
@[simp] theorem State.setSource_ps (src : Source) (x : SourceState) : (s.setSource src x).ps = s.ps := rfl
@[simp] theorem State.setSource_protHigh (src : Source) (x : SourceState) : (s.setSource src x).protHigh = s.protHigh := rfl
@[simp] theorem State.setSource_pending (src : Source) (x : SourceState) : (s.setSource src x).pending = s.pending := rfl
@[simp] theorem State.setSource_schedule (src : Source) (x : SourceState) : (s.setSource src x).schedule = s.schedule := rfl
@[simp] theorem State.setSource_freeCount (src : Source) (x : SourceState) : (s.setSource src x).freeCount = s.freeCount := rfl

@[simp] theorem State.dropFallen_si : (s.dropFallen).si = s.si := rfl
@[simp] theorem State.dropFallen_axes : (s.dropFallen).axes = s.axes := rfl
@[simp] theorem State.dropFallen_le : (s.dropFallen).le = s.le := rfl
@[simp] theorem State.dropFallen_ms : (s.dropFallen).ms = s.ms := rfl
@[simp] theorem State.dropFallen_sw : (s.dropFallen).sw = s.sw := rfl
@[simp] theorem State.dropFallen_dl : (s.dropFallen).dl = s.dl := rfl
@[simp] theorem State.dropFallen_killAsserted : (s.dropFallen).killAsserted = s.killAsserted := rfl
@[simp] theorem State.dropFallen_alc : (s.dropFallen).alc = { s.alc with sources := s.alc.sources.mapSource (fallenSource s) } :=
  rfl
@[simp] theorem State.dropFallen_cl : (s.dropFallen).cl = s.cl := rfl
@[simp] theorem State.dropFallen_ps : (s.dropFallen).ps = s.ps := rfl
@[simp] theorem State.dropFallen_protHigh : (s.dropFallen).protHigh = s.protHigh := rfl
@[simp] theorem State.dropFallen_pending : (s.dropFallen).pending = s.pending := rfl
@[simp] theorem State.dropFallen_schedule : (s.dropFallen).schedule = s.schedule := rfl
@[simp] theorem State.dropFallen_freeCount : (s.dropFallen).freeCount = s.freeCount := rfl

@[simp] theorem State.writeCues_si (c : Byte) : (s.writeCues c).si = s.si := rfl
@[simp] theorem State.writeCues_axes (c : Byte) : (s.writeCues c).axes = s.axes := rfl
@[simp] theorem State.writeCues_le (c : Byte) : (s.writeCues c).le = s.le := rfl
@[simp] theorem State.writeCues_ms (c : Byte) : (s.writeCues c).ms = { s.ms with cues := c } := rfl
@[simp] theorem State.writeCues_sw (c : Byte) : (s.writeCues c).sw = s.sw := rfl
@[simp] theorem State.writeCues_dl (c : Byte) : (s.writeCues c).dl = s.dl := rfl
@[simp] theorem State.writeCues_killAsserted (c : Byte) : (s.writeCues c).killAsserted = s.killAsserted := rfl
@[simp] theorem State.writeCues_alc (c : Byte) : (s.writeCues c).alc = s.alc := rfl
@[simp] theorem State.writeCues_cl (c : Byte) : (s.writeCues c).cl = s.cl := rfl
@[simp] theorem State.writeCues_ps (c : Byte) : (s.writeCues c).ps = s.ps := rfl
@[simp] theorem State.writeCues_protHigh (c : Byte) : (s.writeCues c).protHigh = s.protHigh := rfl
@[simp] theorem State.writeCues_pending (c : Byte) : (s.writeCues c).pending = s.pending := rfl
@[simp] theorem State.writeCues_schedule (c : Byte) : (s.writeCues c).schedule = s.schedule := rfl
@[simp] theorem State.writeCues_freeCount (c : Byte) : (s.writeCues c).freeCount = s.freeCount := rfl

@[simp] theorem State.setProt_si (b : Bool) : (s.setProt b).si = s.si := rfl
@[simp] theorem State.setProt_axes (b : Bool) : (s.setProt b).axes = s.axes := rfl
@[simp] theorem State.setProt_le (b : Bool) : (s.setProt b).le = s.le := rfl
@[simp] theorem State.setProt_ms (b : Bool) : (s.setProt b).ms = s.ms := rfl
@[simp] theorem State.setProt_sw (b : Bool) : (s.setProt b).sw = s.sw := rfl
@[simp] theorem State.setProt_dl (b : Bool) : (s.setProt b).dl = s.dl := rfl
@[simp] theorem State.setProt_killAsserted (b : Bool) : (s.setProt b).killAsserted = s.killAsserted := rfl
@[simp] theorem State.setProt_alc (b : Bool) : (s.setProt b).alc = s.alc := rfl
@[simp] theorem State.setProt_cl (b : Bool) : (s.setProt b).cl = s.cl := rfl
@[simp] theorem State.setProt_ps (b : Bool) : (s.setProt b).ps = s.ps := rfl
@[simp] theorem State.setProt_protHigh (b : Bool) : (s.setProt b).protHigh = b := rfl
@[simp] theorem State.setProt_pending (b : Bool) : (s.setProt b).pending = s.pending := rfl
@[simp] theorem State.setProt_schedule (b : Bool) : (s.setProt b).schedule = s.schedule := rfl
@[simp] theorem State.setProt_freeCount (b : Bool) : (s.setProt b).freeCount = s.freeCount := rfl

@[simp] theorem State.setHoldKill_si (b : Bool) : (s.setHoldKill b).si = s.si := rfl
@[simp] theorem State.setHoldKill_axes (b : Bool) : (s.setHoldKill b).axes = s.axes := rfl
@[simp] theorem State.setHoldKill_le (b : Bool) : (s.setHoldKill b).le = s.le := rfl
@[simp] theorem State.setHoldKill_ms (b : Bool) : (s.setHoldKill b).ms = { s.ms with holdKill := b } := rfl
@[simp] theorem State.setHoldKill_sw (b : Bool) : (s.setHoldKill b).sw = s.sw := rfl
@[simp] theorem State.setHoldKill_dl (b : Bool) : (s.setHoldKill b).dl = s.dl := rfl
@[simp] theorem State.setHoldKill_killAsserted (b : Bool) : (s.setHoldKill b).killAsserted = s.killAsserted := rfl
@[simp] theorem State.setHoldKill_alc (b : Bool) : (s.setHoldKill b).alc = s.alc := rfl
@[simp] theorem State.setHoldKill_cl (b : Bool) : (s.setHoldKill b).cl = s.cl := rfl
@[simp] theorem State.setHoldKill_ps (b : Bool) : (s.setHoldKill b).ps = s.ps := rfl
@[simp] theorem State.setHoldKill_protHigh (b : Bool) : (s.setHoldKill b).protHigh = s.protHigh := rfl
@[simp] theorem State.setHoldKill_pending (b : Bool) : (s.setHoldKill b).pending = s.pending := rfl
@[simp] theorem State.setHoldKill_schedule (b : Bool) : (s.setHoldKill b).schedule = s.schedule := rfl
@[simp] theorem State.setHoldKill_freeCount (b : Bool) : (s.setHoldKill b).freeCount = s.freeCount := rfl

@[simp] theorem State.setHoldAlert_si (b : Bool) : (s.setHoldAlert b).si = s.si := rfl
@[simp] theorem State.setHoldAlert_axes (b : Bool) : (s.setHoldAlert b).axes = s.axes := rfl
@[simp] theorem State.setHoldAlert_le (b : Bool) : (s.setHoldAlert b).le = s.le := rfl
@[simp] theorem State.setHoldAlert_ms (b : Bool) : (s.setHoldAlert b).ms = { s.ms with holdAlert := b } := rfl
@[simp] theorem State.setHoldAlert_sw (b : Bool) : (s.setHoldAlert b).sw = s.sw := rfl
@[simp] theorem State.setHoldAlert_dl (b : Bool) : (s.setHoldAlert b).dl = s.dl := rfl
@[simp] theorem State.setHoldAlert_killAsserted (b : Bool) : (s.setHoldAlert b).killAsserted = s.killAsserted := rfl
@[simp] theorem State.setHoldAlert_alc (b : Bool) : (s.setHoldAlert b).alc = s.alc := rfl
@[simp] theorem State.setHoldAlert_cl (b : Bool) : (s.setHoldAlert b).cl = s.cl := rfl
@[simp] theorem State.setHoldAlert_ps (b : Bool) : (s.setHoldAlert b).ps = s.ps := rfl
@[simp] theorem State.setHoldAlert_protHigh (b : Bool) : (s.setHoldAlert b).protHigh = s.protHigh := rfl
@[simp] theorem State.setHoldAlert_pending (b : Bool) : (s.setHoldAlert b).pending = s.pending := rfl
@[simp] theorem State.setHoldAlert_schedule (b : Bool) : (s.setHoldAlert b).schedule = s.schedule := rfl
@[simp] theorem State.setHoldAlert_freeCount (b : Bool) : (s.setHoldAlert b).freeCount = s.freeCount := rfl

@[simp] theorem State.dampAxes_si (m : AxisSet) : (s.dampAxes m).si = s.si := rfl
@[simp] theorem State.dampAxes_axes (m : AxisSet) :
    (s.dampAxes m).axes = s.axes.mapAxis (fun k a => if hasAxis m k then { a with damp := true } else a) := rfl
@[simp] theorem State.dampAxes_le (m : AxisSet) : (s.dampAxes m).le = s.le := rfl
@[simp] theorem State.dampAxes_ms (m : AxisSet) : (s.dampAxes m).ms = s.ms := rfl
@[simp] theorem State.dampAxes_sw (m : AxisSet) : (s.dampAxes m).sw = s.sw := rfl
@[simp] theorem State.dampAxes_dl (m : AxisSet) : (s.dampAxes m).dl = s.dl := rfl
@[simp] theorem State.dampAxes_killAsserted (m : AxisSet) : (s.dampAxes m).killAsserted = s.killAsserted := rfl
@[simp] theorem State.dampAxes_alc (m : AxisSet) : (s.dampAxes m).alc = s.alc := rfl
@[simp] theorem State.dampAxes_cl (m : AxisSet) : (s.dampAxes m).cl = s.cl := rfl
@[simp] theorem State.dampAxes_ps (m : AxisSet) : (s.dampAxes m).ps = s.ps := rfl
@[simp] theorem State.dampAxes_protHigh (m : AxisSet) : (s.dampAxes m).protHigh = s.protHigh := rfl
@[simp] theorem State.dampAxes_pending (m : AxisSet) : (s.dampAxes m).pending = s.pending := rfl
@[simp] theorem State.dampAxes_schedule (m : AxisSet) : (s.dampAxes m).schedule = s.schedule := rfl
@[simp] theorem State.dampAxes_freeCount (m : AxisSet) : (s.dampAxes m).freeCount = s.freeCount := rfl

@[simp] theorem State.endService1_si : (s.endService1).si = s.si := rfl
@[simp] theorem State.endService1_axes : (s.endService1).axes = s.axes := rfl
@[simp] theorem State.endService1_le : (s.endService1).le = s.le := rfl
@[simp] theorem State.endService1_ms : (s.endService1).ms = s.ms := rfl
@[simp] theorem State.endService1_sw : (s.endService1).sw = s.sw := rfl
@[simp] theorem State.endService1_dl : (s.endService1).dl = s.dl := rfl
@[simp] theorem State.endService1_killAsserted : (s.endService1).killAsserted = s.killAsserted := rfl
@[simp] theorem State.endService1_alc : (s.endService1).alc = { s.alc with inService1 := false } := rfl
@[simp] theorem State.endService1_cl : (s.endService1).cl = s.cl := rfl
@[simp] theorem State.endService1_ps : (s.endService1).ps = s.ps := rfl
@[simp] theorem State.endService1_protHigh : (s.endService1).protHigh = s.protHigh := rfl
@[simp] theorem State.endService1_pending : (s.endService1).pending = s.pending := rfl
@[simp] theorem State.endService1_schedule : (s.endService1).schedule = s.schedule := rfl
@[simp] theorem State.endService1_freeCount : (s.endService1).freeCount = s.freeCount := rfl

@[simp] theorem State.endService2_si : (s.endService2).si = s.si := rfl
@[simp] theorem State.endService2_axes : (s.endService2).axes = s.axes := rfl
@[simp] theorem State.endService2_le : (s.endService2).le = s.le := rfl
@[simp] theorem State.endService2_ms : (s.endService2).ms = s.ms := rfl
@[simp] theorem State.endService2_sw : (s.endService2).sw = s.sw := rfl
@[simp] theorem State.endService2_dl : (s.endService2).dl = s.dl := rfl
@[simp] theorem State.endService2_killAsserted : (s.endService2).killAsserted = s.killAsserted := rfl
@[simp] theorem State.endService2_alc : (s.endService2).alc = { s.alc with inService2 := false } := rfl
@[simp] theorem State.endService2_cl : (s.endService2).cl = s.cl := rfl
@[simp] theorem State.endService2_ps : (s.endService2).ps = s.ps := rfl
@[simp] theorem State.endService2_protHigh : (s.endService2).protHigh = s.protHigh := rfl
@[simp] theorem State.endService2_pending : (s.endService2).pending = s.pending := rfl
@[simp] theorem State.endService2_schedule : (s.endService2).schedule = s.schedule := rfl
@[simp] theorem State.endService2_freeCount : (s.endService2).freeCount = s.freeCount := rfl

@[simp] theorem State.restoreDamp_si : (s.restoreDamp).si = s.si := rfl
@[simp] theorem State.restoreDamp_axes :
    (s.restoreDamp).axes = s.axes.mapAxis (fun k a => { a with damp := resolvedDamp s k a.damp }) := rfl
@[simp] theorem State.restoreDamp_le : (s.restoreDamp).le = s.le := rfl
@[simp] theorem State.restoreDamp_ms : (s.restoreDamp).ms = s.ms := rfl
@[simp] theorem State.restoreDamp_sw : (s.restoreDamp).sw = s.sw := rfl
@[simp] theorem State.restoreDamp_dl : (s.restoreDamp).dl = s.dl := rfl
@[simp] theorem State.restoreDamp_killAsserted : (s.restoreDamp).killAsserted = s.killAsserted := rfl
@[simp] theorem State.restoreDamp_alc : (s.restoreDamp).alc = s.alc := rfl
@[simp] theorem State.restoreDamp_cl : (s.restoreDamp).cl = s.cl := rfl
@[simp] theorem State.restoreDamp_ps : (s.restoreDamp).ps = s.ps := rfl
@[simp] theorem State.restoreDamp_protHigh : (s.restoreDamp).protHigh = s.protHigh := rfl
@[simp] theorem State.restoreDamp_pending : (s.restoreDamp).pending = s.pending := rfl
@[simp] theorem State.restoreDamp_schedule : (s.restoreDamp).schedule = s.schedule := rfl
@[simp] theorem State.restoreDamp_freeCount : (s.restoreDamp).freeCount = s.freeCount := rfl

@[simp] theorem State.cancel_si (m : Word) : (s.cancel m).si = s.si := rfl
@[simp] theorem State.cancel_axes (m : Word) : (s.cancel m).axes = s.axes := rfl
@[simp] theorem State.cancel_le (m : Word) : (s.cancel m).le = s.le := rfl
@[simp] theorem State.cancel_ms (m : Word) : (s.cancel m).ms = s.ms := rfl
@[simp] theorem State.cancel_sw (m : Word) : (s.cancel m).sw = s.sw := rfl
@[simp] theorem State.cancel_dl (m : Word) : (s.cancel m).dl = s.dl := rfl
@[simp] theorem State.cancel_killAsserted (m : Word) : (s.cancel m).killAsserted = s.killAsserted := rfl
@[simp] theorem State.cancel_cl (m : Word) : (s.cancel m).cl = s.cl := rfl
@[simp] theorem State.cancel_ps (m : Word) : (s.cancel m).ps = s.ps := rfl
@[simp] theorem State.cancel_protHigh (m : Word) : (s.cancel m).protHigh = s.protHigh := rfl
@[simp] theorem State.cancel_pending (m : Word) : (s.cancel m).pending = s.pending := rfl
@[simp] theorem State.cancel_schedule (m : Word) : (s.cancel m).schedule = s.schedule := rfl
@[simp] theorem State.cancel_freeCount (m : Word) : (s.cancel m).freeCount = s.freeCount := rfl

@[simp] theorem State.configure_si (cs : List SourceConfig) : (s.configure cs).si = s.si := rfl
@[simp] theorem State.configure_axes (cs : List SourceConfig) : (s.configure cs).axes = s.axes := rfl
@[simp] theorem State.configure_le (cs : List SourceConfig) : (s.configure cs).le = s.le := rfl
@[simp] theorem State.configure_ms (cs : List SourceConfig) : (s.configure cs).ms = s.ms := rfl
@[simp] theorem State.configure_sw (cs : List SourceConfig) : (s.configure cs).sw = s.sw := rfl
@[simp] theorem State.configure_dl (cs : List SourceConfig) : (s.configure cs).dl = s.dl := rfl
@[simp] theorem State.configure_killAsserted (cs : List SourceConfig) : (s.configure cs).killAsserted = s.killAsserted := rfl
@[simp] theorem State.configure_cl (cs : List SourceConfig) : (s.configure cs).cl = s.cl := rfl
@[simp] theorem State.configure_ps (cs : List SourceConfig) : (s.configure cs).ps = s.ps := rfl
@[simp] theorem State.configure_protHigh (cs : List SourceConfig) : (s.configure cs).protHigh = s.protHigh := rfl
@[simp] theorem State.configure_pending (cs : List SourceConfig) : (s.configure cs).pending = s.pending := rfl
@[simp] theorem State.configure_schedule (cs : List SourceConfig) : (s.configure cs).schedule = s.schedule := rfl
@[simp] theorem State.configure_freeCount (cs : List SourceConfig) : (s.configure cs).freeCount = s.freeCount := rfl

@[simp] theorem State.enqueue_si (es : List (Byte × EntryBody)) : (s.enqueue es).si = s.si := rfl
@[simp] theorem State.enqueue_axes (es : List (Byte × EntryBody)) : (s.enqueue es).axes = s.axes := rfl
@[simp] theorem State.enqueue_le (es : List (Byte × EntryBody)) : (s.enqueue es).le = s.le := rfl
@[simp] theorem State.enqueue_sw (es : List (Byte × EntryBody)) : (s.enqueue es).sw = s.sw := rfl
@[simp] theorem State.enqueue_dl (es : List (Byte × EntryBody)) : (s.enqueue es).dl = s.dl := rfl
@[simp] theorem State.enqueue_killAsserted (es : List (Byte × EntryBody)) : (s.enqueue es).killAsserted = s.killAsserted := rfl
@[simp] theorem State.enqueue_alc (es : List (Byte × EntryBody)) : (s.enqueue es).alc = s.alc := rfl
@[simp] theorem State.enqueue_cl (es : List (Byte × EntryBody)) : (s.enqueue es).cl = s.cl := rfl
@[simp] theorem State.enqueue_ps (es : List (Byte × EntryBody)) : (s.enqueue es).ps = s.ps := rfl
@[simp] theorem State.enqueue_protHigh (es : List (Byte × EntryBody)) : (s.enqueue es).protHigh = s.protHigh := rfl
@[simp] theorem State.enqueue_pending (es : List (Byte × EntryBody)) : (s.enqueue es).pending = s.pending := rfl
@[simp] theorem State.enqueue_schedule (es : List (Byte × EntryBody)) : (s.enqueue es).schedule = s.schedule := rfl
@[simp] theorem State.enqueue_freeCount (es : List (Byte × EntryBody)) : (s.enqueue es).freeCount = s.freeCount := rfl

@[simp] theorem State.flush_si : (s.flush).si = s.si := rfl
@[simp] theorem State.flush_axes : (s.flush).axes = s.axes := rfl
@[simp] theorem State.flush_le : (s.flush).le = s.le := rfl
@[simp] theorem State.flush_ms : (s.flush).ms = { s.ms with queue := [], phase := .none } := rfl
@[simp] theorem State.flush_sw : (s.flush).sw = s.sw := rfl
@[simp] theorem State.flush_dl : (s.flush).dl = s.dl := rfl
@[simp] theorem State.flush_killAsserted : (s.flush).killAsserted = s.killAsserted := rfl
@[simp] theorem State.flush_alc : (s.flush).alc = s.alc := rfl
@[simp] theorem State.flush_cl : (s.flush).cl = s.cl := rfl
@[simp] theorem State.flush_ps : (s.flush).ps = s.ps := rfl
@[simp] theorem State.flush_protHigh : (s.flush).protHigh = s.protHigh := rfl
@[simp] theorem State.flush_pending : (s.flush).pending = s.pending := rfl
@[simp] theorem State.flush_schedule : (s.flush).schedule = s.schedule := rfl
@[simp] theorem State.flush_freeCount : (s.flush).freeCount = s.freeCount := rfl

@[simp] theorem State.setRunning_si (b : Bool) : (s.setRunning b).si = s.si := rfl
@[simp] theorem State.setRunning_axes (b : Bool) : (s.setRunning b).axes = s.axes := rfl
@[simp] theorem State.setRunning_le (b : Bool) : (s.setRunning b).le = s.le := rfl
@[simp] theorem State.setRunning_ms (b : Bool) : (s.setRunning b).ms = { s.ms with running := b } := rfl
@[simp] theorem State.setRunning_sw (b : Bool) : (s.setRunning b).sw = s.sw := rfl
@[simp] theorem State.setRunning_dl (b : Bool) : (s.setRunning b).dl = s.dl := rfl
@[simp] theorem State.setRunning_killAsserted (b : Bool) : (s.setRunning b).killAsserted = s.killAsserted := rfl
@[simp] theorem State.setRunning_alc (b : Bool) : (s.setRunning b).alc = s.alc := rfl
@[simp] theorem State.setRunning_cl (b : Bool) : (s.setRunning b).cl = s.cl := rfl
@[simp] theorem State.setRunning_ps (b : Bool) : (s.setRunning b).ps = s.ps := rfl
@[simp] theorem State.setRunning_protHigh (b : Bool) : (s.setRunning b).protHigh = s.protHigh := rfl
@[simp] theorem State.setRunning_pending (b : Bool) : (s.setRunning b).pending = s.pending := rfl
@[simp] theorem State.setRunning_schedule (b : Bool) : (s.setRunning b).schedule = s.schedule := rfl
@[simp] theorem State.setRunning_freeCount (b : Bool) : (s.setRunning b).freeCount = s.freeCount := rfl

@[simp] theorem State.setDamp_si (m : AxisSet) (b : Bool) : (s.setDamp m b).si = s.si := rfl
@[simp] theorem State.setDamp_axes (m : AxisSet) (b : Bool) :
    (s.setDamp m b).axes = s.axes.mapAxis (fun k a => if hasAxis m k then { a with damp := b } else a) := rfl
@[simp] theorem State.setDamp_le (m : AxisSet) (b : Bool) : (s.setDamp m b).le = s.le := rfl
@[simp] theorem State.setDamp_ms (m : AxisSet) (b : Bool) : (s.setDamp m b).ms = s.ms := rfl
@[simp] theorem State.setDamp_sw (m : AxisSet) (b : Bool) : (s.setDamp m b).sw = s.sw := rfl
@[simp] theorem State.setDamp_dl (m : AxisSet) (b : Bool) : (s.setDamp m b).dl = s.dl := rfl
@[simp] theorem State.setDamp_killAsserted (m : AxisSet) (b : Bool) : (s.setDamp m b).killAsserted = s.killAsserted := rfl
@[simp] theorem State.setDamp_alc (m : AxisSet) (b : Bool) : (s.setDamp m b).alc = s.alc := rfl
@[simp] theorem State.setDamp_cl (m : AxisSet) (b : Bool) : (s.setDamp m b).cl = s.cl := rfl
@[simp] theorem State.setDamp_ps (m : AxisSet) (b : Bool) : (s.setDamp m b).ps = s.ps := rfl
@[simp] theorem State.setDamp_protHigh (m : AxisSet) (b : Bool) : (s.setDamp m b).protHigh = s.protHigh := rfl
@[simp] theorem State.setDamp_pending (m : AxisSet) (b : Bool) : (s.setDamp m b).pending = s.pending := rfl
@[simp] theorem State.setDamp_schedule (m : AxisSet) (b : Bool) : (s.setDamp m b).schedule = s.schedule := rfl
@[simp] theorem State.setDamp_freeCount (m : AxisSet) (b : Bool) : (s.setDamp m b).freeCount = s.freeCount := rfl

@[simp] theorem State.setTestMask_si (m : AxisSet) : (s.setTestMask m).si = s.si := rfl
@[simp] theorem State.setTestMask_axes (m : AxisSet) : (s.setTestMask m).axes = s.axes := rfl
@[simp] theorem State.setTestMask_le (m : AxisSet) : (s.setTestMask m).le = s.le := rfl
@[simp] theorem State.setTestMask_ms (m : AxisSet) : (s.setTestMask m).ms = s.ms := rfl
@[simp] theorem State.setTestMask_sw (m : AxisSet) : (s.setTestMask m).sw = s.sw := rfl
@[simp] theorem State.setTestMask_dl (m : AxisSet) : (s.setTestMask m).dl = s.dl := rfl
@[simp] theorem State.setTestMask_killAsserted (m : AxisSet) : (s.setTestMask m).killAsserted = s.killAsserted := rfl
@[simp] theorem State.setTestMask_alc (m : AxisSet) : (s.setTestMask m).alc = { s.alc with testMask := m } := rfl
@[simp] theorem State.setTestMask_cl (m : AxisSet) : (s.setTestMask m).cl = s.cl := rfl
@[simp] theorem State.setTestMask_ps (m : AxisSet) : (s.setTestMask m).ps = s.ps := rfl
@[simp] theorem State.setTestMask_protHigh (m : AxisSet) : (s.setTestMask m).protHigh = s.protHigh := rfl
@[simp] theorem State.setTestMask_pending (m : AxisSet) : (s.setTestMask m).pending = s.pending := rfl
@[simp] theorem State.setTestMask_schedule (m : AxisSet) : (s.setTestMask m).schedule = s.schedule := rfl
@[simp] theorem State.setTestMask_freeCount (m : AxisSet) : (s.setTestMask m).freeCount = s.freeCount := rfl

@[simp] theorem State.setLatch_si (b : Bool) : (s.setLatch b).si = s.si := rfl
@[simp] theorem State.setLatch_axes (b : Bool) : (s.setLatch b).axes = s.axes := rfl
@[simp] theorem State.setLatch_le (b : Bool) : (s.setLatch b).le = s.le := rfl
@[simp] theorem State.setLatch_ms (b : Bool) : (s.setLatch b).ms = s.ms := rfl
@[simp] theorem State.setLatch_sw (b : Bool) : (s.setLatch b).sw = s.sw := rfl
@[simp] theorem State.setLatch_dl (b : Bool) : (s.setLatch b).dl = s.dl := rfl
@[simp] theorem State.setLatch_killAsserted (b : Bool) : (s.setLatch b).killAsserted = s.killAsserted := rfl
@[simp] theorem State.setLatch_alc (b : Bool) : (s.setLatch b).alc = s.alc := rfl
@[simp] theorem State.setLatch_cl (b : Bool) : (s.setLatch b).cl = s.cl := rfl
@[simp] theorem State.setLatch_ps (b : Bool) : (s.setLatch b).ps = { s.ps with latch := b } := rfl
@[simp] theorem State.setLatch_protHigh (b : Bool) : (s.setLatch b).protHigh = s.protHigh := rfl
@[simp] theorem State.setLatch_pending (b : Bool) : (s.setLatch b).pending = s.pending := rfl
@[simp] theorem State.setLatch_schedule (b : Bool) : (s.setLatch b).schedule = s.schedule := rfl
@[simp] theorem State.setLatch_freeCount (b : Bool) : (s.setLatch b).freeCount = s.freeCount := rfl

@[simp] theorem State.beginBusy_si (b : Busy) : (s.beginBusy b).si = s.si := rfl
@[simp] theorem State.beginBusy_axes (b : Busy) : (s.beginBusy b).axes = s.axes := rfl
@[simp] theorem State.beginBusy_le (b : Busy) : (s.beginBusy b).le = s.le := rfl
@[simp] theorem State.beginBusy_ms (b : Busy) : (s.beginBusy b).ms = s.ms := rfl
@[simp] theorem State.beginBusy_sw (b : Busy) : (s.beginBusy b).sw = s.sw := rfl
@[simp] theorem State.beginBusy_dl (b : Busy) : (s.beginBusy b).dl = s.dl := rfl
@[simp] theorem State.beginBusy_killAsserted (b : Busy) : (s.beginBusy b).killAsserted = s.killAsserted := rfl
@[simp] theorem State.beginBusy_alc (b : Busy) : (s.beginBusy b).alc = s.alc := rfl
@[simp] theorem State.beginBusy_cl (b : Busy) : (s.beginBusy b).cl = s.cl := rfl
@[simp] theorem State.beginBusy_ps (b : Busy) : (s.beginBusy b).ps = { s.ps with busy := b, busyElapsed := 0 } := rfl
@[simp] theorem State.beginBusy_protHigh (b : Busy) : (s.beginBusy b).protHigh = s.protHigh := rfl
@[simp] theorem State.beginBusy_pending (b : Busy) : (s.beginBusy b).pending = s.pending := rfl
@[simp] theorem State.beginBusy_schedule (b : Busy) : (s.beginBusy b).schedule = s.schedule := rfl
@[simp] theorem State.beginBusy_freeCount (b : Busy) : (s.beginBusy b).freeCount = s.freeCount := rfl

@[simp] theorem State.setSlot_si (k : Nat) (x : Slot) : (s.setSlot k x).si = s.si := rfl
@[simp] theorem State.setSlot_axes (k : Nat) (x : Slot) : (s.setSlot k x).axes = s.axes := rfl
@[simp] theorem State.setSlot_le (k : Nat) (x : Slot) : (s.setSlot k x).le = s.le := rfl
@[simp] theorem State.setSlot_ms (k : Nat) (x : Slot) : (s.setSlot k x).ms = s.ms := rfl
@[simp] theorem State.setSlot_sw (k : Nat) (x : Slot) : (s.setSlot k x).sw = s.sw := rfl
@[simp] theorem State.setSlot_dl (k : Nat) (x : Slot) : (s.setSlot k x).dl = s.dl := rfl
@[simp] theorem State.setSlot_killAsserted (k : Nat) (x : Slot) : (s.setSlot k x).killAsserted = s.killAsserted := rfl
@[simp] theorem State.setSlot_alc (k : Nat) (x : Slot) : (s.setSlot k x).alc = s.alc := rfl
@[simp] theorem State.setSlot_cl (k : Nat) (x : Slot) : (s.setSlot k x).cl = s.cl := rfl
@[simp] theorem State.setSlot_ps (k : Nat) (x : Slot) : (s.setSlot k x).ps = { s.ps with slots := s.ps.slots.set k x } := rfl
@[simp] theorem State.setSlot_protHigh (k : Nat) (x : Slot) : (s.setSlot k x).protHigh = s.protHigh := rfl
@[simp] theorem State.setSlot_pending (k : Nat) (x : Slot) : (s.setSlot k x).pending = s.pending := rfl
@[simp] theorem State.setSlot_schedule (k : Nat) (x : Slot) : (s.setSlot k x).schedule = s.schedule := rfl
@[simp] theorem State.setSlot_freeCount (k : Nat) (x : Slot) : (s.setSlot k x).freeCount = s.freeCount := rfl

@[simp] theorem State.markPartial_si (k : Nat) : (s.markPartial k).si = s.si := rfl
@[simp] theorem State.markPartial_axes (k : Nat) : (s.markPartial k).axes = s.axes := rfl
@[simp] theorem State.markPartial_le (k : Nat) : (s.markPartial k).le = s.le := rfl
@[simp] theorem State.markPartial_ms (k : Nat) : (s.markPartial k).ms = s.ms := rfl
@[simp] theorem State.markPartial_sw (k : Nat) : (s.markPartial k).sw = s.sw := rfl
@[simp] theorem State.markPartial_dl (k : Nat) : (s.markPartial k).dl = s.dl := rfl
@[simp] theorem State.markPartial_killAsserted (k : Nat) : (s.markPartial k).killAsserted = s.killAsserted := rfl
@[simp] theorem State.markPartial_alc (k : Nat) : (s.markPartial k).alc = s.alc := rfl
@[simp] theorem State.markPartial_cl (k : Nat) : (s.markPartial k).cl = s.cl := rfl
@[simp] theorem State.markPartial_ps (k : Nat) :
    (s.markPartial k).ps = { s.ps with slots := s.ps.slots.set k { s.slot k with state := .partly } } := rfl
@[simp] theorem State.markPartial_protHigh (k : Nat) : (s.markPartial k).protHigh = s.protHigh := rfl
@[simp] theorem State.markPartial_pending (k : Nat) : (s.markPartial k).pending = s.pending := rfl
@[simp] theorem State.markPartial_schedule (k : Nat) : (s.markPartial k).schedule = s.schedule := rfl
@[simp] theorem State.markPartial_freeCount (k : Nat) : (s.markPartial k).freeCount = s.freeCount := rfl

@[simp] theorem State.endBusy_si : (s.endBusy).si = s.si := rfl
@[simp] theorem State.endBusy_axes : (s.endBusy).axes = s.axes := rfl
@[simp] theorem State.endBusy_le : (s.endBusy).le = s.le := rfl
@[simp] theorem State.endBusy_ms : (s.endBusy).ms = s.ms := rfl
@[simp] theorem State.endBusy_sw : (s.endBusy).sw = s.sw := rfl
@[simp] theorem State.endBusy_dl : (s.endBusy).dl = s.dl := rfl
@[simp] theorem State.endBusy_killAsserted : (s.endBusy).killAsserted = s.killAsserted := rfl
@[simp] theorem State.endBusy_alc : (s.endBusy).alc = s.alc := rfl
@[simp] theorem State.endBusy_cl : (s.endBusy).cl = s.cl := rfl
@[simp] theorem State.endBusy_ps : (s.endBusy).ps = { s.ps with busy := .idle, busyElapsed := 0, latch := false } := rfl
@[simp] theorem State.endBusy_protHigh : (s.endBusy).protHigh = s.protHigh := rfl
@[simp] theorem State.endBusy_pending : (s.endBusy).pending = s.pending := rfl
@[simp] theorem State.endBusy_schedule : (s.endBusy).schedule = s.schedule := rfl
@[simp] theorem State.endBusy_freeCount : (s.endBusy).freeCount = s.freeCount := rfl

@[simp] theorem State.setCueTable_si (t : List Selector) : (s.setCueTable t).si = s.si := rfl
@[simp] theorem State.setCueTable_axes (t : List Selector) : (s.setCueTable t).axes = s.axes := rfl
@[simp] theorem State.setCueTable_le (t : List Selector) : (s.setCueTable t).le = s.le := rfl
@[simp] theorem State.setCueTable_ms (t : List Selector) : (s.setCueTable t).ms = { s.ms with cueSources := t } := rfl
@[simp] theorem State.setCueTable_sw (t : List Selector) : (s.setCueTable t).sw = s.sw := rfl
@[simp] theorem State.setCueTable_dl (t : List Selector) : (s.setCueTable t).dl = s.dl := rfl
@[simp] theorem State.setCueTable_killAsserted (t : List Selector) : (s.setCueTable t).killAsserted = s.killAsserted := rfl
@[simp] theorem State.setCueTable_alc (t : List Selector) : (s.setCueTable t).alc = s.alc := rfl
@[simp] theorem State.setCueTable_cl (t : List Selector) : (s.setCueTable t).cl = s.cl := rfl
@[simp] theorem State.setCueTable_ps (t : List Selector) : (s.setCueTable t).ps = s.ps := rfl
@[simp] theorem State.setCueTable_protHigh (t : List Selector) : (s.setCueTable t).protHigh = s.protHigh := rfl
@[simp] theorem State.setCueTable_pending (t : List Selector) : (s.setCueTable t).pending = s.pending := rfl
@[simp] theorem State.setCueTable_schedule (t : List Selector) : (s.setCueTable t).schedule = s.schedule := rfl
@[simp] theorem State.setCueTable_freeCount (t : List Selector) : (s.setCueTable t).freeCount = s.freeCount := rfl

@[simp] theorem State.restartSilence_si : (s.restartSilence).si = s.si := rfl
@[simp] theorem State.restartSilence_axes : (s.restartSilence).axes = s.axes := rfl
@[simp] theorem State.restartSilence_le : (s.restartSilence).le = s.le := rfl
@[simp] theorem State.restartSilence_ms : (s.restartSilence).ms = s.ms := rfl
@[simp] theorem State.restartSilence_sw : (s.restartSilence).sw = s.sw := rfl
@[simp] theorem State.restartSilence_dl : (s.restartSilence).dl = s.dl := rfl
@[simp] theorem State.restartSilence_killAsserted : (s.restartSilence).killAsserted = s.killAsserted := rfl
@[simp] theorem State.restartSilence_alc : (s.restartSilence).alc = s.alc := rfl
@[simp] theorem State.restartSilence_cl : (s.restartSilence).cl = { s.cl with silence := .running, silenceElapsed := 0 } := rfl
@[simp] theorem State.restartSilence_ps : (s.restartSilence).ps = s.ps := rfl
@[simp] theorem State.restartSilence_protHigh : (s.restartSilence).protHigh = s.protHigh := rfl
@[simp] theorem State.restartSilence_pending : (s.restartSilence).pending = s.pending := rfl
@[simp] theorem State.restartSilence_schedule : (s.restartSilence).schedule = s.schedule := rfl
@[simp] theorem State.restartSilence_freeCount : (s.restartSilence).freeCount = s.freeCount := rfl

@[simp] theorem State.zeroRates_si : (s.zeroRates).si = s.si := rfl
@[simp] theorem State.zeroRates_axes :
    (s.zeroRates).axes = s.axes.mapAxis (fun _ a => if a.mode = .rate then { a with rdTarget := 0 } else a) := rfl
@[simp] theorem State.zeroRates_le : (s.zeroRates).le = s.le := rfl
@[simp] theorem State.zeroRates_ms : (s.zeroRates).ms = s.ms := rfl
@[simp] theorem State.zeroRates_sw : (s.zeroRates).sw = s.sw := rfl
@[simp] theorem State.zeroRates_dl : (s.zeroRates).dl = s.dl := rfl
@[simp] theorem State.zeroRates_killAsserted : (s.zeroRates).killAsserted = s.killAsserted := rfl
@[simp] theorem State.zeroRates_alc : (s.zeroRates).alc = s.alc := rfl
@[simp] theorem State.zeroRates_cl : (s.zeroRates).cl = s.cl := rfl
@[simp] theorem State.zeroRates_ps : (s.zeroRates).ps = s.ps := rfl
@[simp] theorem State.zeroRates_protHigh : (s.zeroRates).protHigh = s.protHigh := rfl
@[simp] theorem State.zeroRates_pending : (s.zeroRates).pending = s.pending := rfl
@[simp] theorem State.zeroRates_schedule : (s.zeroRates).schedule = s.schedule := rfl
@[simp] theorem State.zeroRates_freeCount : (s.zeroRates).freeCount = s.freeCount := rfl

@[simp] theorem State.expireSilence_si : (s.expireSilence).si = s.si := rfl
@[simp] theorem State.expireSilence_axes :
    (s.expireSilence).axes = s.axes.mapAxis (fun _ a => if a.mode = .rate then { a with rdTarget := 0 } else a) := rfl
@[simp] theorem State.expireSilence_le : (s.expireSilence).le = s.le := rfl
@[simp] theorem State.expireSilence_ms : (s.expireSilence).ms = s.ms := rfl
@[simp] theorem State.expireSilence_sw : (s.expireSilence).sw = s.sw := rfl
@[simp] theorem State.expireSilence_dl : (s.expireSilence).dl = s.dl := rfl
@[simp] theorem State.expireSilence_killAsserted : (s.expireSilence).killAsserted = s.killAsserted := rfl
@[simp] theorem State.expireSilence_alc : (s.expireSilence).alc = s.alc := rfl
@[simp] theorem State.expireSilence_cl : (s.expireSilence).cl = { s.cl with silence := .expired, silenceElapsed := 0 } := rfl
@[simp] theorem State.expireSilence_ps : (s.expireSilence).ps = s.ps := rfl
@[simp] theorem State.expireSilence_protHigh : (s.expireSilence).protHigh = s.protHigh := rfl
@[simp] theorem State.expireSilence_pending : (s.expireSilence).pending = s.pending := rfl
@[simp] theorem State.expireSilence_schedule : (s.expireSilence).schedule = s.schedule := rfl
@[simp] theorem State.expireSilence_freeCount : (s.expireSilence).freeCount = s.freeCount := rfl

@[simp] theorem State.beginFrame_si : (s.beginFrame).si = s.si := rfl
@[simp] theorem State.beginFrame_axes : (s.beginFrame).axes = s.axes := rfl
@[simp] theorem State.beginFrame_ms : (s.beginFrame).ms = s.ms := rfl
@[simp] theorem State.beginFrame_sw : (s.beginFrame).sw = s.sw := rfl
@[simp] theorem State.beginFrame_dl : (s.beginFrame).dl = s.dl := rfl
@[simp] theorem State.beginFrame_killAsserted : (s.beginFrame).killAsserted = s.killAsserted := rfl
@[simp] theorem State.beginFrame_alc : (s.beginFrame).alc = s.alc := rfl
@[simp] theorem State.beginFrame_cl : (s.beginFrame).cl = s.cl := rfl
@[simp] theorem State.beginFrame_ps : (s.beginFrame).ps = s.ps := rfl
@[simp] theorem State.beginFrame_protHigh : (s.beginFrame).protHigh = s.protHigh := rfl
@[simp] theorem State.beginFrame_pending : (s.beginFrame).pending = s.pending := rfl
@[simp] theorem State.beginFrame_schedule : (s.beginFrame).schedule = s.schedule := rfl
@[simp] theorem State.beginFrame_freeCount : (s.beginFrame).freeCount = s.freeCount := rfl

@[simp] theorem State.restartFrameTimer_si : (s.restartFrameTimer).si = s.si := rfl
@[simp] theorem State.restartFrameTimer_axes : (s.restartFrameTimer).axes = s.axes := rfl
@[simp] theorem State.restartFrameTimer_le : (s.restartFrameTimer).le = { s.le with frameElapsed := 0 } := rfl
@[simp] theorem State.restartFrameTimer_ms : (s.restartFrameTimer).ms = s.ms := rfl
@[simp] theorem State.restartFrameTimer_sw : (s.restartFrameTimer).sw = s.sw := rfl
@[simp] theorem State.restartFrameTimer_dl : (s.restartFrameTimer).dl = s.dl := rfl
@[simp] theorem State.restartFrameTimer_killAsserted : (s.restartFrameTimer).killAsserted = s.killAsserted := rfl
@[simp] theorem State.restartFrameTimer_alc : (s.restartFrameTimer).alc = s.alc := rfl
@[simp] theorem State.restartFrameTimer_cl : (s.restartFrameTimer).cl = s.cl := rfl
@[simp] theorem State.restartFrameTimer_ps : (s.restartFrameTimer).ps = s.ps := rfl
@[simp] theorem State.restartFrameTimer_protHigh : (s.restartFrameTimer).protHigh = s.protHigh := rfl
@[simp] theorem State.restartFrameTimer_pending : (s.restartFrameTimer).pending = s.pending := rfl
@[simp] theorem State.restartFrameTimer_schedule : (s.restartFrameTimer).schedule = s.schedule := rfl
@[simp] theorem State.restartFrameTimer_freeCount : (s.restartFrameTimer).freeCount = s.freeCount := rfl

@[simp] theorem State.setFrameTimer_si : (s.setFrameTimer).si = s.si := rfl
@[simp] theorem State.setFrameTimer_axes : (s.setFrameTimer).axes = s.axes := rfl
@[simp] theorem State.setFrameTimer_le :
    (s.setFrameTimer).le = { s.le with frameTimer := s.le.timerShouldRun, frameElapsed := 0 } := rfl
@[simp] theorem State.setFrameTimer_ms : (s.setFrameTimer).ms = s.ms := rfl
@[simp] theorem State.setFrameTimer_sw : (s.setFrameTimer).sw = s.sw := rfl
@[simp] theorem State.setFrameTimer_dl : (s.setFrameTimer).dl = s.dl := rfl
@[simp] theorem State.setFrameTimer_killAsserted : (s.setFrameTimer).killAsserted = s.killAsserted := rfl
@[simp] theorem State.setFrameTimer_alc : (s.setFrameTimer).alc = s.alc := rfl
@[simp] theorem State.setFrameTimer_cl : (s.setFrameTimer).cl = s.cl := rfl
@[simp] theorem State.setFrameTimer_ps : (s.setFrameTimer).ps = s.ps := rfl
@[simp] theorem State.setFrameTimer_protHigh : (s.setFrameTimer).protHigh = s.protHigh := rfl
@[simp] theorem State.setFrameTimer_pending : (s.setFrameTimer).pending = s.pending := rfl
@[simp] theorem State.setFrameTimer_schedule : (s.setFrameTimer).schedule = s.schedule := rfl
@[simp] theorem State.setFrameTimer_freeCount : (s.setFrameTimer).freeCount = s.freeCount := rfl

@[simp] theorem State.setRx_si (r : RxState) : (s.setRx r).si = s.si := rfl
@[simp] theorem State.setRx_axes (r : RxState) : (s.setRx r).axes = s.axes := rfl
@[simp] theorem State.setRx_le (r : RxState) : (s.setRx r).le = s.le := rfl
@[simp] theorem State.setRx_ms (r : RxState) : (s.setRx r).ms = s.ms := rfl
@[simp] theorem State.setRx_sw (r : RxState) : (s.setRx r).sw = s.sw := rfl
@[simp] theorem State.setRx_dl (r : RxState) : (s.setRx r).dl = s.dl := rfl
@[simp] theorem State.setRx_killAsserted (r : RxState) : (s.setRx r).killAsserted = s.killAsserted := rfl
@[simp] theorem State.setRx_alc (r : RxState) : (s.setRx r).alc = s.alc := rfl
@[simp] theorem State.setRx_cl (r : RxState) : (s.setRx r).cl = { s.cl with rx := r } := rfl
@[simp] theorem State.setRx_ps (r : RxState) : (s.setRx r).ps = s.ps := rfl
@[simp] theorem State.setRx_protHigh (r : RxState) : (s.setRx r).protHigh = s.protHigh := rfl
@[simp] theorem State.setRx_pending (r : RxState) : (s.setRx r).pending = s.pending := rfl
@[simp] theorem State.setRx_schedule (r : RxState) : (s.setRx r).schedule = s.schedule := rfl
@[simp] theorem State.setRx_freeCount (r : RxState) : (s.setRx r).freeCount = s.freeCount := rfl

@[simp] theorem State.setDispatcher_si (d : Dispatcher) : (s.setDispatcher d).si = s.si := rfl
@[simp] theorem State.setDispatcher_axes (d : Dispatcher) : (s.setDispatcher d).axes = s.axes := rfl
@[simp] theorem State.setDispatcher_le (d : Dispatcher) : (s.setDispatcher d).le = s.le := rfl
@[simp] theorem State.setDispatcher_ms (d : Dispatcher) : (s.setDispatcher d).ms = s.ms := rfl
@[simp] theorem State.setDispatcher_sw (d : Dispatcher) : (s.setDispatcher d).sw = s.sw := rfl
@[simp] theorem State.setDispatcher_dl (d : Dispatcher) : (s.setDispatcher d).dl = s.dl := rfl
@[simp] theorem State.setDispatcher_killAsserted (d : Dispatcher) : (s.setDispatcher d).killAsserted = s.killAsserted := rfl
@[simp] theorem State.setDispatcher_alc (d : Dispatcher) : (s.setDispatcher d).alc = s.alc := rfl
@[simp] theorem State.setDispatcher_cl (d : Dispatcher) : (s.setDispatcher d).cl = { s.cl with dispatcher := d } := rfl
@[simp] theorem State.setDispatcher_ps (d : Dispatcher) : (s.setDispatcher d).ps = s.ps := rfl
@[simp] theorem State.setDispatcher_protHigh (d : Dispatcher) : (s.setDispatcher d).protHigh = s.protHigh := rfl
@[simp] theorem State.setDispatcher_pending (d : Dispatcher) : (s.setDispatcher d).pending = s.pending := rfl
@[simp] theorem State.setDispatcher_schedule (d : Dispatcher) : (s.setDispatcher d).schedule = s.schedule := rfl
@[simp] theorem State.setDispatcher_freeCount (d : Dispatcher) : (s.setDispatcher d).freeCount = s.freeCount := rfl

@[simp] theorem State.setRequests_si (q : List Frame) : (s.setRequests q).si = s.si := rfl
@[simp] theorem State.setRequests_axes (q : List Frame) : (s.setRequests q).axes = s.axes := rfl
@[simp] theorem State.setRequests_le (q : List Frame) : (s.setRequests q).le = s.le := rfl
@[simp] theorem State.setRequests_ms (q : List Frame) : (s.setRequests q).ms = s.ms := rfl
@[simp] theorem State.setRequests_sw (q : List Frame) : (s.setRequests q).sw = s.sw := rfl
@[simp] theorem State.setRequests_dl (q : List Frame) : (s.setRequests q).dl = s.dl := rfl
@[simp] theorem State.setRequests_killAsserted (q : List Frame) : (s.setRequests q).killAsserted = s.killAsserted := rfl
@[simp] theorem State.setRequests_alc (q : List Frame) : (s.setRequests q).alc = s.alc := rfl
@[simp] theorem State.setRequests_cl (q : List Frame) : (s.setRequests q).cl = { s.cl with requests := q } := rfl
@[simp] theorem State.setRequests_ps (q : List Frame) : (s.setRequests q).ps = s.ps := rfl
@[simp] theorem State.setRequests_protHigh (q : List Frame) : (s.setRequests q).protHigh = s.protHigh := rfl
@[simp] theorem State.setRequests_pending (q : List Frame) : (s.setRequests q).pending = s.pending := rfl
@[simp] theorem State.setRequests_schedule (q : List Frame) : (s.setRequests q).schedule = s.schedule := rfl
@[simp] theorem State.setRequests_freeCount (q : List Frame) : (s.setRequests q).freeCount = s.freeCount := rfl

@[simp] theorem State.countAdmitted_si : (s.countAdmitted).si = s.si := rfl
@[simp] theorem State.countAdmitted_axes : (s.countAdmitted).axes = s.axes := rfl
@[simp] theorem State.countAdmitted_le : (s.countAdmitted).le = s.le := rfl
@[simp] theorem State.countAdmitted_ms : (s.countAdmitted).ms = s.ms := rfl
@[simp] theorem State.countAdmitted_sw : (s.countAdmitted).sw = s.sw := rfl
@[simp] theorem State.countAdmitted_dl : (s.countAdmitted).dl = s.dl := rfl
@[simp] theorem State.countAdmitted_killAsserted : (s.countAdmitted).killAsserted = s.killAsserted := rfl
@[simp] theorem State.countAdmitted_alc : (s.countAdmitted).alc = s.alc := rfl
@[simp] theorem State.countAdmitted_cl :
    (s.countAdmitted).cl = { s.cl with counters := { s.cl.counters with admitted := satInc s.cl.counters.admitted } } := rfl
@[simp] theorem State.countAdmitted_ps : (s.countAdmitted).ps = s.ps := rfl
@[simp] theorem State.countAdmitted_protHigh : (s.countAdmitted).protHigh = s.protHigh := rfl
@[simp] theorem State.countAdmitted_pending : (s.countAdmitted).pending = s.pending := rfl
@[simp] theorem State.countAdmitted_schedule : (s.countAdmitted).schedule = s.schedule := rfl
@[simp] theorem State.countAdmitted_freeCount : (s.countAdmitted).freeCount = s.freeCount := rfl

@[simp] theorem State.countOverrun_si : (s.countOverrun).si = s.si := rfl
@[simp] theorem State.countOverrun_axes : (s.countOverrun).axes = s.axes := rfl
@[simp] theorem State.countOverrun_le : (s.countOverrun).le = s.le := rfl
@[simp] theorem State.countOverrun_ms : (s.countOverrun).ms = s.ms := rfl
@[simp] theorem State.countOverrun_sw : (s.countOverrun).sw = s.sw := rfl
@[simp] theorem State.countOverrun_dl : (s.countOverrun).dl = s.dl := rfl
@[simp] theorem State.countOverrun_killAsserted : (s.countOverrun).killAsserted = s.killAsserted := rfl
@[simp] theorem State.countOverrun_alc : (s.countOverrun).alc = s.alc := rfl
@[simp] theorem State.countOverrun_cl :
    (s.countOverrun).cl = { s.cl with counters := { s.cl.counters with overruns := satInc s.cl.counters.overruns } } := rfl
@[simp] theorem State.countOverrun_ps : (s.countOverrun).ps = s.ps := rfl
@[simp] theorem State.countOverrun_protHigh : (s.countOverrun).protHigh = s.protHigh := rfl
@[simp] theorem State.countOverrun_pending : (s.countOverrun).pending = s.pending := rfl
@[simp] theorem State.countOverrun_schedule : (s.countOverrun).schedule = s.schedule := rfl
@[simp] theorem State.countOverrun_freeCount : (s.countOverrun).freeCount = s.freeCount := rfl

@[simp] theorem State.countGap_si : (s.countGap).si = s.si := rfl
@[simp] theorem State.countGap_axes : (s.countGap).axes = s.axes := rfl
@[simp] theorem State.countGap_le : (s.countGap).le = s.le := rfl
@[simp] theorem State.countGap_ms : (s.countGap).ms = s.ms := rfl
@[simp] theorem State.countGap_sw : (s.countGap).sw = s.sw := rfl
@[simp] theorem State.countGap_dl : (s.countGap).dl = s.dl := rfl
@[simp] theorem State.countGap_killAsserted : (s.countGap).killAsserted = s.killAsserted := rfl
@[simp] theorem State.countGap_alc : (s.countGap).alc = s.alc := rfl
@[simp] theorem State.countGap_cl :
    (s.countGap).cl = { s.cl with counters := { s.cl.counters with gaps := satInc s.cl.counters.gaps } } := rfl
@[simp] theorem State.countGap_ps : (s.countGap).ps = s.ps := rfl
@[simp] theorem State.countGap_protHigh : (s.countGap).protHigh = s.protHigh := rfl
@[simp] theorem State.countGap_pending : (s.countGap).pending = s.pending := rfl
@[simp] theorem State.countGap_schedule : (s.countGap).schedule = s.schedule := rfl
@[simp] theorem State.countGap_freeCount : (s.countGap).freeCount = s.freeCount := rfl

@[simp] theorem State.countCrcError_si : (s.countCrcError).si = s.si := rfl
@[simp] theorem State.countCrcError_axes : (s.countCrcError).axes = s.axes := rfl
@[simp] theorem State.countCrcError_le : (s.countCrcError).le = s.le := rfl
@[simp] theorem State.countCrcError_ms : (s.countCrcError).ms = s.ms := rfl
@[simp] theorem State.countCrcError_sw : (s.countCrcError).sw = s.sw := rfl
@[simp] theorem State.countCrcError_dl : (s.countCrcError).dl = s.dl := rfl
@[simp] theorem State.countCrcError_killAsserted : (s.countCrcError).killAsserted = s.killAsserted := rfl
@[simp] theorem State.countCrcError_alc : (s.countCrcError).alc = s.alc := rfl
@[simp] theorem State.countCrcError_cl :
    (s.countCrcError).cl = { s.cl with counters := { s.cl.counters with crcErrors := satInc s.cl.counters.crcErrors } } := rfl
@[simp] theorem State.countCrcError_ps : (s.countCrcError).ps = s.ps := rfl
@[simp] theorem State.countCrcError_protHigh : (s.countCrcError).protHigh = s.protHigh := rfl
@[simp] theorem State.countCrcError_pending : (s.countCrcError).pending = s.pending := rfl
@[simp] theorem State.countCrcError_schedule : (s.countCrcError).schedule = s.schedule := rfl
@[simp] theorem State.countCrcError_freeCount : (s.countCrcError).freeCount = s.freeCount := rfl

@[simp] theorem State.countLengthError_si : (s.countLengthError).si = s.si := rfl
@[simp] theorem State.countLengthError_axes : (s.countLengthError).axes = s.axes := rfl
@[simp] theorem State.countLengthError_le : (s.countLengthError).le = s.le := rfl
@[simp] theorem State.countLengthError_ms : (s.countLengthError).ms = s.ms := rfl
@[simp] theorem State.countLengthError_sw : (s.countLengthError).sw = s.sw := rfl
@[simp] theorem State.countLengthError_dl : (s.countLengthError).dl = s.dl := rfl
@[simp] theorem State.countLengthError_killAsserted : (s.countLengthError).killAsserted = s.killAsserted := rfl
@[simp] theorem State.countLengthError_alc : (s.countLengthError).alc = s.alc := rfl
@[simp] theorem State.countLengthError_cl :
    (s.countLengthError).cl = { s.cl with counters := { s.cl.counters with lengthErrors := satInc s.cl.counters.lengthErrors } } := rfl
@[simp] theorem State.countLengthError_ps : (s.countLengthError).ps = s.ps := rfl
@[simp] theorem State.countLengthError_protHigh : (s.countLengthError).protHigh = s.protHigh := rfl
@[simp] theorem State.countLengthError_pending : (s.countLengthError).pending = s.pending := rfl
@[simp] theorem State.countLengthError_schedule : (s.countLengthError).schedule = s.schedule := rfl
@[simp] theorem State.countLengthError_freeCount : (s.countLengthError).freeCount = s.freeCount := rfl

@[simp] theorem State.loadTuning_si (img : Image) : (s.loadTuning img).si = s.si := rfl
@[simp] theorem State.loadTuning_le (img : Image) : (s.loadTuning img).le = s.le := rfl
@[simp] theorem State.loadTuning_ms (img : Image) : (s.loadTuning img).ms = s.ms := rfl
@[simp] theorem State.loadTuning_sw (img : Image) : (s.loadTuning img).sw = s.sw := rfl
@[simp] theorem State.loadTuning_dl (img : Image) : (s.loadTuning img).dl = s.dl := rfl
@[simp] theorem State.loadTuning_killAsserted (img : Image) : (s.loadTuning img).killAsserted = s.killAsserted := rfl
@[simp] theorem State.loadTuning_alc (img : Image) : (s.loadTuning img).alc = s.alc := rfl
@[simp] theorem State.loadTuning_cl (img : Image) : (s.loadTuning img).cl = s.cl := rfl
@[simp] theorem State.loadTuning_ps (img : Image) : (s.loadTuning img).ps = s.ps := rfl
@[simp] theorem State.loadTuning_protHigh (img : Image) : (s.loadTuning img).protHigh = s.protHigh := rfl
@[simp] theorem State.loadTuning_pending (img : Image) : (s.loadTuning img).pending = s.pending := rfl
@[simp] theorem State.loadTuning_schedule (img : Image) : (s.loadTuning img).schedule = s.schedule := rfl
@[simp] theorem State.loadTuning_freeCount (img : Image) : (s.loadTuning img).freeCount = s.freeCount := rfl

@[simp] theorem State.loadWaypoints_si (img : Image) : (s.loadWaypoints img).si = s.si := rfl
@[simp] theorem State.loadWaypoints_axes (img : Image) : (s.loadWaypoints img).axes = s.axes := rfl
@[simp] theorem State.loadWaypoints_le (img : Image) : (s.loadWaypoints img).le = s.le := rfl
@[simp] theorem State.loadWaypoints_sw (img : Image) : (s.loadWaypoints img).sw = s.sw := rfl
@[simp] theorem State.loadWaypoints_dl (img : Image) : (s.loadWaypoints img).dl = s.dl := rfl
@[simp] theorem State.loadWaypoints_killAsserted (img : Image) : (s.loadWaypoints img).killAsserted = s.killAsserted := rfl
@[simp] theorem State.loadWaypoints_alc (img : Image) : (s.loadWaypoints img).alc = s.alc := rfl
@[simp] theorem State.loadWaypoints_cl (img : Image) : (s.loadWaypoints img).cl = s.cl := rfl
@[simp] theorem State.loadWaypoints_ps (img : Image) : (s.loadWaypoints img).ps = s.ps := rfl
@[simp] theorem State.loadWaypoints_protHigh (img : Image) : (s.loadWaypoints img).protHigh = s.protHigh := rfl
@[simp] theorem State.loadWaypoints_pending (img : Image) : (s.loadWaypoints img).pending = s.pending := rfl
@[simp] theorem State.loadWaypoints_schedule (img : Image) : (s.loadWaypoints img).schedule = s.schedule := rfl
@[simp] theorem State.loadWaypoints_freeCount (img : Image) : (s.loadWaypoints img).freeCount = s.freeCount := rfl

/-! ### Updates that choose by a case -/

@[simp] theorem State.setTrig_si (l : TrigLine) (t : Trigger) : (s.setTrig l t).si = s.si := by cases l <;> rfl
@[simp] theorem State.setTrig_axes (l : TrigLine) (t : Trigger) : (s.setTrig l t).axes = s.axes := by cases l <;> rfl
@[simp] theorem State.setTrig_le (l : TrigLine) (t : Trigger) : (s.setTrig l t).le = s.le := by cases l <;> rfl
@[simp] theorem State.setTrig_sw (l : TrigLine) (t : Trigger) : (s.setTrig l t).sw = s.sw := by cases l <;> rfl
@[simp] theorem State.setTrig_dl (l : TrigLine) (t : Trigger) : (s.setTrig l t).dl = s.dl := by cases l <;> rfl
@[simp] theorem State.setTrig_killAsserted (l : TrigLine) (t : Trigger) : (s.setTrig l t).killAsserted = s.killAsserted := by cases l <;> rfl
@[simp] theorem State.setTrig_alc (l : TrigLine) (t : Trigger) : (s.setTrig l t).alc = s.alc := by cases l <;> rfl
@[simp] theorem State.setTrig_cl (l : TrigLine) (t : Trigger) : (s.setTrig l t).cl = s.cl := by cases l <;> rfl
@[simp] theorem State.setTrig_ps (l : TrigLine) (t : Trigger) : (s.setTrig l t).ps = s.ps := by cases l <;> rfl
@[simp] theorem State.setTrig_protHigh (l : TrigLine) (t : Trigger) : (s.setTrig l t).protHigh = s.protHigh := by cases l <;> rfl
@[simp] theorem State.setTrig_pending (l : TrigLine) (t : Trigger) : (s.setTrig l t).pending = s.pending := by cases l <;> rfl
@[simp] theorem State.setTrig_schedule (l : TrigLine) (t : Trigger) : (s.setTrig l t).schedule = s.schedule := by cases l <;> rfl
@[simp] theorem State.setTrig_freeCount (l : TrigLine) (t : Trigger) : (s.setTrig l t).freeCount = s.freeCount := by cases l <;> rfl

@[simp] theorem State.setSeen_si (l : Level) : (s.setSeen l).si = s.si := by cases l <;> rfl
@[simp] theorem State.setSeen_axes (l : Level) : (s.setSeen l).axes = s.axes := by cases l <;> rfl
@[simp] theorem State.setSeen_le (l : Level) : (s.setSeen l).le = s.le := by cases l <;> rfl
@[simp] theorem State.setSeen_ms (l : Level) : (s.setSeen l).ms = s.ms := by cases l <;> rfl
@[simp] theorem State.setSeen_sw (l : Level) : (s.setSeen l).sw = s.sw := by cases l <;> rfl
@[simp] theorem State.setSeen_dl (l : Level) : (s.setSeen l).dl = s.dl := by cases l <;> rfl
@[simp] theorem State.setSeen_killAsserted (l : Level) : (s.setSeen l).killAsserted = s.killAsserted := by cases l <;> rfl
@[simp] theorem State.setSeen_cl (l : Level) : (s.setSeen l).cl = s.cl := by cases l <;> rfl
@[simp] theorem State.setSeen_ps (l : Level) : (s.setSeen l).ps = s.ps := by cases l <;> rfl
@[simp] theorem State.setSeen_protHigh (l : Level) : (s.setSeen l).protHigh = s.protHigh := by cases l <;> rfl
@[simp] theorem State.setSeen_pending (l : Level) : (s.setSeen l).pending = s.pending := by cases l <;> rfl
@[simp] theorem State.setSeen_schedule (l : Level) : (s.setSeen l).schedule = s.schedule := by cases l <;> rfl
@[simp] theorem State.setSeen_freeCount (l : Level) : (s.setSeen l).freeCount = s.freeCount := by cases l <;> rfl

@[simp] theorem State.recordTaking_si (c : Cause) : (s.recordTaking c).si = s.si := by
  unfold State.recordTaking; cases c.level <;> rfl
@[simp] theorem State.recordTaking_axes (c : Cause) : (s.recordTaking c).axes = s.axes := by
  unfold State.recordTaking; cases c.level <;> rfl
@[simp] theorem State.recordTaking_le (c : Cause) : (s.recordTaking c).le = s.le := by
  unfold State.recordTaking; cases c.level <;> rfl
@[simp] theorem State.recordTaking_ms (c : Cause) : (s.recordTaking c).ms = s.ms := by
  unfold State.recordTaking; cases c.level <;> rfl
@[simp] theorem State.recordTaking_sw (c : Cause) : (s.recordTaking c).sw = s.sw := by
  unfold State.recordTaking; cases c.level <;> rfl
@[simp] theorem State.recordTaking_dl (c : Cause) : (s.recordTaking c).dl = s.dl := by
  unfold State.recordTaking; cases c.level <;> rfl
@[simp] theorem State.recordTaking_killAsserted (c : Cause) : (s.recordTaking c).killAsserted = s.killAsserted := by
  unfold State.recordTaking; cases c.level <;> rfl
@[simp] theorem State.recordTaking_cl (c : Cause) : (s.recordTaking c).cl = s.cl := by
  unfold State.recordTaking; cases c.level <;> rfl
@[simp] theorem State.recordTaking_ps (c : Cause) : (s.recordTaking c).ps = s.ps := by
  unfold State.recordTaking; cases c.level <;> rfl
@[simp] theorem State.recordTaking_protHigh (c : Cause) : (s.recordTaking c).protHigh = s.protHigh := by
  unfold State.recordTaking; cases c.level <;> rfl
@[simp] theorem State.recordTaking_pending (c : Cause) : (s.recordTaking c).pending = s.pending := by
  unfold State.recordTaking; cases c.level <;> rfl
@[simp] theorem State.recordTaking_schedule (c : Cause) : (s.recordTaking c).schedule = s.schedule := by
  unfold State.recordTaking; cases c.level <;> rfl
@[simp] theorem State.recordTaking_freeCount (c : Cause) : (s.recordTaking c).freeCount = s.freeCount := by
  unfold State.recordTaking; cases c.level <;> rfl

@[simp] theorem State.offerUnasked_si (x : Frame) : (s.offerUnasked x).si = s.si := by
  unfold State.offerUnasked; split <;> rfl
@[simp] theorem State.offerUnasked_axes (x : Frame) : (s.offerUnasked x).axes = s.axes := by
  unfold State.offerUnasked; split <;> rfl
@[simp] theorem State.offerUnasked_le (x : Frame) : (s.offerUnasked x).le = s.le := by
  unfold State.offerUnasked; split <;> rfl
@[simp] theorem State.offerUnasked_ms (x : Frame) : (s.offerUnasked x).ms = s.ms := by
  unfold State.offerUnasked; split <;> rfl
@[simp] theorem State.offerUnasked_sw (x : Frame) : (s.offerUnasked x).sw = s.sw := by
  unfold State.offerUnasked; split <;> rfl
@[simp] theorem State.offerUnasked_dl (x : Frame) : (s.offerUnasked x).dl = s.dl := by
  unfold State.offerUnasked; split <;> rfl
@[simp] theorem State.offerUnasked_killAsserted (x : Frame) : (s.offerUnasked x).killAsserted = s.killAsserted := by
  unfold State.offerUnasked; split <;> rfl
@[simp] theorem State.offerUnasked_alc (x : Frame) : (s.offerUnasked x).alc = s.alc := by
  unfold State.offerUnasked; split <;> rfl
@[simp] theorem State.offerUnasked_ps (x : Frame) : (s.offerUnasked x).ps = s.ps := by
  unfold State.offerUnasked; split <;> rfl
@[simp] theorem State.offerUnasked_protHigh (x : Frame) : (s.offerUnasked x).protHigh = s.protHigh := by
  unfold State.offerUnasked; split <;> rfl
@[simp] theorem State.offerUnasked_pending (x : Frame) : (s.offerUnasked x).pending = s.pending := by
  unfold State.offerUnasked; split <;> rfl
@[simp] theorem State.offerUnasked_schedule (x : Frame) : (s.offerUnasked x).schedule = s.schedule := by
  unfold State.offerUnasked; split <;> rfl
@[simp] theorem State.offerUnasked_freeCount (x : Frame) : (s.offerUnasked x).freeCount = s.freeCount := by
  unfold State.offerUnasked; split <;> rfl

@[simp] theorem State.choose_si (n : Nat) : (s.choose n).2.si = s.si := by
  unfold State.choose; split <;> [rfl; (split <;> rfl)]
@[simp] theorem State.choose_axes (n : Nat) : (s.choose n).2.axes = s.axes := by
  unfold State.choose; split <;> [rfl; (split <;> rfl)]
@[simp] theorem State.choose_le (n : Nat) : (s.choose n).2.le = s.le := by
  unfold State.choose; split <;> [rfl; (split <;> rfl)]
@[simp] theorem State.choose_ms (n : Nat) : (s.choose n).2.ms = s.ms := by
  unfold State.choose; split <;> [rfl; (split <;> rfl)]
@[simp] theorem State.choose_sw (n : Nat) : (s.choose n).2.sw = s.sw := by
  unfold State.choose; split <;> [rfl; (split <;> rfl)]
@[simp] theorem State.choose_dl (n : Nat) : (s.choose n).2.dl = s.dl := by
  unfold State.choose; split <;> [rfl; (split <;> rfl)]
@[simp] theorem State.choose_killAsserted (n : Nat) : (s.choose n).2.killAsserted = s.killAsserted := by
  unfold State.choose; split <;> [rfl; (split <;> rfl)]
@[simp] theorem State.choose_alc (n : Nat) : (s.choose n).2.alc = s.alc := by
  unfold State.choose; split <;> [rfl; (split <;> rfl)]
@[simp] theorem State.choose_cl (n : Nat) : (s.choose n).2.cl = s.cl := by
  unfold State.choose; split <;> [rfl; (split <;> rfl)]
@[simp] theorem State.choose_ps (n : Nat) : (s.choose n).2.ps = s.ps := by
  unfold State.choose; split <;> [rfl; (split <;> rfl)]
@[simp] theorem State.choose_protHigh (n : Nat) : (s.choose n).2.protHigh = s.protHigh := by
  unfold State.choose; split <;> [rfl; (split <;> rfl)]
@[simp] theorem State.choose_pending (n : Nat) : (s.choose n).2.pending = s.pending := by
  unfold State.choose; split <;> [rfl; (split <;> rfl)]

@[simp] theorem State.freeHalf_si : s.freeHalf.2.si = s.si := rfl
@[simp] theorem State.freeHalf_axes : s.freeHalf.2.axes = s.axes := rfl
@[simp] theorem State.freeHalf_le : s.freeHalf.2.le = s.le := rfl
@[simp] theorem State.freeHalf_ms : s.freeHalf.2.ms = s.ms := rfl
@[simp] theorem State.freeHalf_sw : s.freeHalf.2.sw = s.sw := rfl
@[simp] theorem State.freeHalf_dl : s.freeHalf.2.dl = s.dl := rfl
@[simp] theorem State.freeHalf_killAsserted : s.freeHalf.2.killAsserted = s.killAsserted := rfl
@[simp] theorem State.freeHalf_alc : s.freeHalf.2.alc = s.alc := rfl
@[simp] theorem State.freeHalf_cl : s.freeHalf.2.cl = s.cl := rfl
@[simp] theorem State.freeHalf_ps : s.freeHalf.2.ps = s.ps := rfl
@[simp] theorem State.freeHalf_protHigh : s.freeHalf.2.protHigh = s.protHigh := rfl
@[simp] theorem State.freeHalf_pending : s.freeHalf.2.pending = s.pending := rfl
@[simp] theorem State.freeHalf_schedule : s.freeHalf.2.schedule = s.schedule := rfl

end

end Sys2Proof.Machine
end

