-- ==== Sys2Proof/Laws/Settle.lean ====
section
/-! SUPPORT. What choosing, arbitration, the head's moves and a settling can do, said once. -/

namespace Sys2Proof.Machine

/-! ### Choices -/

theorem choose_lt (s : State) {n : Nat} (h : 0 < n) : (s.choose n).1 < n := by
  unfold State.choose
  split
  · exact h
  · split <;> exact Nat.mod_lt _ h

theorem choose_one (s : State) : s.choose 1 = (0, s) := rfl

theorem pickDue_state (s : State) (d : Due) (ds : List Due) : (s.pickDue d ds).2.2 = (s.choose (ds.length + 1)).2 := rfl

theorem pickDue_mem (s : State) (d : Due) (ds : List Due) : (s.pickDue d ds).1 ∈ d :: ds := by
  have h : (s.choose (ds.length + 1)).1 < (d :: ds).length := by simpa using choose_lt s (Nat.succ_pos ds.length)
  simp only [State.pickDue, List.getElem?_eq_getElem h, Option.getD_some]
  exact List.getElem_mem h

theorem pickDue_single (s : State) (d : Due) : s.pickDue d [] = (d, [], s) := rfl

/-! ### Arbitration (R146) -/

/-- A taking is of a level-2 source with level 2 free, or of a level-1 source with both levels free; the source taken is the one
waiting with the lowest number. -/
theorem arbitrate_cases {s t : State} (h : s.arbitrate = some t) :
    (s.alc.inService2 = false ∧ ∃ src, firstWaiting s .two = some src ∧ t = s.take .two src) ∨
    (s.alc.inService2 = false ∧ s.alc.inService1 = false ∧ firstWaiting s .two = none ∧
      ∃ src, firstWaiting s .one = some src ∧ t = s.take .one src) := by
  unfold State.arbitrate at h
  split at h
  · cases h
  · rename_i h2
    split at h
    · rename_i src hs
      exact .inl ⟨by simpa using h2, src, hs, (Option.some.inj h).symm⟩
    · rename_i hn
      split at h
      · cases h
      · rename_i h1
        obtain ⟨src, hs, ht⟩ := Option.map_eq_some_iff.mp h
        exact .inr ⟨by simpa using h2, by simpa using h1, hn, src, hs, ht.symm⟩

/-! ### The head's moves (R76, R79, R95) -/

/-- The head moves only while progress is allowed: a PENDING head begins, a WAIT whose condition holds retires, a waiting GOTO or
SHIFT with an empty outstanding set retires. -/
theorem headStep_cases {s t : State} (h : s.headStep = some t) :
    progress s = true ∧ ∃ e rest, s.ms.queue = e :: rest ∧
      ((s.ms.phase = .pending ∧ t = s.beginEntry e) ∨
       (∃ left mask any consume timeout, s.ms.phase = .waitingCue left ∧ e.body = .wait mask any consume timeout ∧
          waitHolds s.ms.cues mask any = true ∧ t = s.retireWait mask any consume) ∨
       (∃ aborted, s.ms.phase = .waitingSegments 0 aborted ∧ t = s.retire (if aborted then .aborted else .done))) := by
  unfold State.headStep at h
  split at h
  · rename_i hp
    refine ⟨hp, ?_⟩
    split at h
    · rename_i e rest hq hph
      exact ⟨e, rest, hq, .inl ⟨hph, (Option.some.inj h).symm⟩⟩
    · rename_i e rest left hq hph
      split at h
      · rename_i mask any consume timeout hb
        split at h
        · rename_i hw
          exact ⟨e, rest, hq, .inr (.inl ⟨left, mask, any, consume, timeout, hph, hb, hw, (Option.some.inj h).symm⟩)⟩
        · cases h
      · cases h
    · rename_i e rest out aborted hq hph
      split at h
      · rename_i ho
        subst ho
        exact ⟨e, rest, hq, .inr (.inr ⟨aborted, hph, (Option.some.inj h).symm⟩)⟩
      · cases h
    · cases h
  · cases h

theorem headStep_none_of_no_progress {s : State} (h : progress s = false) : s.headStep = none := by
  simp [State.headStep, h]

/-! ### Changes of the cue flags (R94, R95) -/

/-- The test at a change of the cues leaves the head alone, or makes the head's move of a waiting WAIT. -/
theorem testWait_cases (s : State) : s.testWait = s ∨ ((∃ n, s.ms.phase = .waitingCue n) ∧ s.headStep = some s.testWait) := by
  unfold State.testWait
  split
  · rename_i n hp
    cases hh : s.headStep with
    | none => exact .inl rfl
    | some t => exact .inr ⟨⟨n, hp⟩, rfl⟩
  · exact .inl rfl

theorem testWait_of_headStep {s : State} (h : s.headStep = none) : s.testWait = s := by
  unfold State.testWait
  split
  · rw [h]; rfl
  · rfl

/-- While progress is not allowed a change of the cues is a write of the flags and nothing else (R95). -/
theorem changeCues_of_no_progress {s : State} (h : progress s = false) (c : Byte) : s.changeCues c = s.writeCues c := by
  unfold State.changeCues
  split
  · rename_i hc; subst hc; rfl
  · exact testWait_of_headStep (headStep_none_of_no_progress (s := s.writeCues c) h)

theorem feedCue_of_no_progress {s : State} (h : progress s = false) (sel : Selector) :
    s.feedCue sel = s.writeCues (s.ms.cues ||| cuesOf s.ms.cueSources sel) := changeCues_of_no_progress h _

/-- What a write of the flags and every move of the head keep, a change of the cues keeps. -/
theorem changeCues_keeps {P : State → Prop} (write : ∀ s c, P s → P (s.writeCues c))
    (head : ∀ s t, P s → s.headStep = some t → P t) (s : State) (c : Byte) (h : P s) : P (s.changeCues c) := by
  unfold State.changeCues
  split
  · exact h
  · rcases testWait_cases (s.writeCues c) with e | ⟨_, e⟩
    · rw [e]; exact write _ _ h
    · exact head _ _ (write _ _ h) e

/-! ### Settling -/

/-- One move of a settling is a taking, a source becoming pending after a choice, or a move of the head. -/
theorem settleStep_cases {w w' : Waiting} {s t : State} (h : settleStep w s = some (w', t)) :
    s.arbitrate = some t ∨ (∃ d n, t = ((s.choose n).2).markDue d) ∨ s.headStep = some t := by
  unfold settleStep at h
  split at h
  · rename_i u hu
    simp only [Option.some.injEq, Prod.mk.injEq] at h
    exact .inl (h.2 ▸ hu)
  · split at h
    · rename_i d ds _
      simp only [Option.some.injEq, Prod.mk.injEq] at h
      exact .inr (.inl ⟨_, ds.length + 1, h.2.symm⟩)
    · split at h
      · rename_i u _ hu
        simp only [Option.some.injEq, Prod.mk.injEq] at h
        exact .inr (.inr (h.2 ▸ hu))
      · unfold dueStep at h
        split at h
        · rename_i d ds _
          simp only [Option.some.injEq, Prod.mk.injEq] at h
          exact .inr (.inl ⟨_, ds.length + 1, h.2.symm⟩)
        · cases hh : s.headStep with
          | none => rw [hh] at h; cases h
          | some u =>
            rw [hh] at h
            simp only [Option.map_some, Option.some.injEq, Prod.mk.injEq] at h
            exact .inr (.inr (by rw [h.2]))

/-- A settling goes no further exactly when nothing can be taken, nothing waits to become pending and the head cannot move. -/
theorem settleStep_none_iff (w : Waiting) (s : State) :
    settleStep w s = none ↔ s.arbitrate = none ∧ w.own = [] ∧ w.due = [] ∧ s.headStep = none := by
  unfold settleStep dueStep
  cases ha : s.arbitrate <;> cases ho : w.own <;> cases hp : headPending s <;> cases hh : s.headStep <;> cases hd : w.due <;> simp

/-- A PENDING head begins before what the event left becomes pending (R76, R95). -/
theorem settleStep_of_run {s t : State} {due : List Due} (ha : s.arbitrate = none) (hp : s.ms.phase = .pending)
    (hh : s.headStep = some t) : settleStep ⟨[], due⟩ s = some (⟨[], due⟩, t) := by
  simp [settleStep, ha, hh, headPending, hp]

/-- A judging that finds no rise is the dropping of the falls. -/
theorem judge_of_no_rise {s : State} (h : risings s.dropFallen = []) : s.judge = (s.dropFallen, []) := by
  unfold State.judge
  simp [h]

theorem judge_atRest {s : State} (hd : s.dropFallen = s) (hr : risings s = []) : s.judge = (s, []) := by
  rw [judge_of_no_rise (by rw [hd]; exact hr), hd]

section
variable {P : State → Prop} (drop : ∀ s, P s → P s.dropFallen) (rise : ∀ s src, P s → P (s.recordRise src))
include drop rise

/-- What recording a fall and a rise keep, a judging keeps. -/
theorem judge_keeps (s : State) (h : P s) : P s.judge.1 := by
  have hf : ∀ (l : List Source) (t : State), P t → P (l.foldl State.recordRise t) := fun l => by
    induction l with
    | nil => exact fun t ht => ht
    | cons src l ih => exact fun t ht => ih _ (rise _ _ ht)
  exact hf _ _ (drop _ h)

variable (choose : ∀ s n, P s → P (s.choose n).2) (mark : ∀ s d, P s → P (s.markDue d))
  (take : ∀ s l src, P s → P (s.take l src)) (head : ∀ s t, P s → s.headStep = some t → P t)
include choose mark take head

theorem settleLoop_keeps (n : Nat) (w : Waiting) (s : State) (h : P s) : P (settleLoop n w s) := by
  induction n generalizing w s with
  | zero => exact h
  | succ n ih =>
    unfold settleLoop
    split
    · rename_i p hp
      refine ih _ _ (judge_keeps drop rise _ ?_)
      rcases settleStep_cases hp with ha | ⟨d, m, he⟩ | hh
      · rcases arbitrate_cases ha with ⟨_, src, _, he⟩ | ⟨_, _, _, src, _, he⟩
        · rw [he]; exact take _ _ _ h
        · rw [he]; exact take _ _ _ h
      · rw [he]; exact mark _ _ (choose _ _ h)
      · exact head _ _ h hh
    · exact h

/-- What every move of a settling keeps, a settling keeps. -/
theorem settle_keeps (due : List Due) (s : State) (h : P s) : P (s.settle due) :=
  settleLoop_keeps drop rise choose mark take head _ _ _ (judge_keeps drop rise s h)

end

theorem settleFuel_pos (s : State) : settleFuel s = (settleFuel s - 1) + 1 := by unfold settleFuel; omega

/-- A part at rest stays as it is. -/
theorem settle_atRest {s : State} (h : AtRest s) : s.settle [] = s := by
  obtain ⟨hd, hr, ha, hh⟩ := h
  unfold State.settle
  rw [settleFuel_pos]
  simp only [judge_atRest hd hr, List.map_nil, List.nil_append]
  unfold settleLoop
  rw [(settleStep_none_iff _ _).mpr ⟨ha, rfl, rfl, hh⟩]

/-- One raise at rest: the source becomes pending without a choice, and the rest follows. -/
theorem settle_raise {s : State} (h : AtRest s) (src : Source) (p : Half) :
    let q := (s.markDue (.raised src p)).judge
    s.settle [.raised src p] = settleLoop (settleFuel s - 1) ((⟨[], []⟩ : Waiting).judged q) q.1 := by
  obtain ⟨hd, hr, ha, hh⟩ := h
  unfold State.settle
  rw [settleFuel_pos]
  have hf : stillDues s [Due.raised src p] = [Due.raised src p] := rfl
  simp only [judge_atRest hd hr, List.map_nil, List.nil_append, hf]
  conv_lhs => unfold settleLoop
  simp only [settleStep, ha, hh, dueStep, pickDue_single]
  cases headPending s <;> rfl

/-- When no taking is possible. -/
theorem arbitrate_none_iff (s : State) :
    s.arbitrate = none ↔
      s.alc.inService2 = true ∨ (firstWaiting s .two = none ∧ (s.alc.inService1 = true ∨ firstWaiting s .one = none)) := by
  unfold State.arbitrate
  cases h2 : s.alc.inService2 <;> cases h3 : firstWaiting s .two <;> cases h1 : s.alc.inService1 <;> simp

/-- Whether the head moves depends on the hold, HALT, the queue, the phase and the cues alone. -/
theorem headStep_none_of_ms {s t : State} (hm : t.ms = s.ms) (hp : progress t = progress s) (h : s.headStep = none) :
    t.headStep = none := by
  unfold State.headStep at h ⊢
  rw [hm, hp]
  cases hpr : progress s
  · rfl
  rw [hpr] at h
  simp only [if_true] at h ⊢
  cases hq : s.ms.queue with
  | nil => rfl
  | cons e rest =>
    rw [hq] at h
    cases hph : s.ms.phase with
    | pending => rw [hph] at h; simp at h
    | waitingCue x =>
      rw [hph] at h
      cases hb : e.body with
      | wait mask any consume timeout =>
        simp only [hb] at h ⊢
        split at h
        · cases h
        · rename_i hw; rw [if_neg hw]
      | _ => simp only [hb]
    | waitingSegments out aborted =>
      rw [hph] at h
      simp only at h ⊢
      split at h
      · cases h
      · rename_i ho; rw [if_neg ho]
    | _ => rfl

/-- A part at rest stays at rest when its alert state and its truths stay and the head still cannot move. -/
theorem atRest_of {s t : State} (h : AtRest s) (ha : t.alc = s.alc) (hc : ∀ src, conditionTruth t src = conditionTruth s src)
    (hh : t.headStep = none) : AtRest t := by
  have hf : fallenSource t = fallenSource s := by
    funext src x
    simp [fallenSource, hc]
  obtain ⟨h1, h2, h3, _⟩ := h
  refine ⟨?_, ?_, ?_, hh⟩
  · have e : s.alc.sources.mapSource (fallenSource s) = s.alc.sources := congrArg (fun t : State => t.alc.sources) h1
    unfold State.dropFallen
    rw [hf, ha, e, ← ha]
  · rw [← h2]
    unfold risings
    congr 1
    funext src
    simp [risen, hc, State.source, ha]
  · rw [arbitrate_none_iff] at h3 ⊢
    unfold firstWaiting State.source at *
    rw [ha]
    exact h3

end Sys2Proof.Machine
end

