-- ==== Sys2Proof/Laws/Frames.lean ====
section
/-! SUPPORT. What the shared operations leave alone: each lemma says that an operation changes at most the axes, the Move Sequencer,
the sweep, the Alert Controller, the transmit queue with its drop counter, and the choice fields. -/

namespace Sys2Proof.Machine

theorem SameOutside.rfl {s : State} : SameOutside s s := by simp [SameOutside]

theorem SameOutside.trans {s t u : State} (h : SameOutside s t) (g : SameOutside t u) : SameOutside s u := by
  obtain ⟨h1, h2, h3, h4, h5, h6, h7, h8⟩ := h
  obtain ⟨g1, g2, g3, g4, g5, g6, g7, g8⟩ := g
  refine ⟨g1.trans h1, g2.trans h2, g3.trans h3, g4.trans h4, g5.trans h5, g6.trans h6, g7.trans h7, ?_⟩
  rw [g8, h8]

/-- An update of the named parts alone. -/
theorem SameOutside.of_cl {s t : State} (h1 : t.si = s.si) (h2 : t.le = s.le) (h3 : t.dl = s.dl)
    (h4 : t.killAsserted = s.killAsserted) (h5 : t.ps = s.ps) (h6 : t.protHigh = s.protHigh) (h7 : t.pending = s.pending)
    (h8 : t.cl = s.cl) : SameOutside s t := by
  refine ⟨h1, h2, h3, h4, h5, h6, h7, ?_⟩
  rw [h8]

theorem SameOutside.foldl {α : Type} {f : State → α → State} (hf : ∀ s a, SameOutside s (f s a)) (l : List α) (s : State) :
    SameOutside s (l.foldl f s) := by
  induction l generalizing s with
  | nil => exact .rfl
  | cons a l ih => exact (hf s a).trans (ih _)

/-! ### Transmit queue and notices -/

theorem offerUnasked_same (s : State) (f : Frame) : SameOutside s (s.offerUnasked f) := by
  unfold State.offerUnasked
  split <;> simp [SameOutside, State.pushTx]

theorem noticeDone_same (s : State) (op : DoneOp) (a b c : Byte) : SameOutside s (s.noticeDone op a b c) := offerUnasked_same _ _

/-! ### Choices -/

theorem choose_same (s : State) (n : Nat) : SameOutside s (s.choose n).2 := by
  apply SameOutside.of_cl <;> simp

/-! ### Sweep -/

theorem setAxis_same (s : State) (k : Axis) (a : AxisRec) : SameOutside s (s.setAxis k a) := by
  apply SameOutside.of_cl <;> rfl

theorem setActiveD_same (s : State) (k : Axis) (d : Nat) : SameOutside s (s.setActiveD k d) := setAxis_same _ _ _

theorem setStagedD_same (s : State) (k : Axis) (d : Nat) : SameOutside s (s.setStagedD k d) := setAxis_same _ _ _

theorem endSweep_same (s : State) (o : SweepOutcome) (d : Nat) (a b : Option Nat) : SameOutside s (s.endSweep o d a b) := by
  unfold State.endSweep
  refine SameOutside.trans ?_ (noticeDone_same _ _ _ _ _)
  apply SameOutside.of_cl <;> rfl

theorem abortSweep_same (s : State) : SameOutside s s.abortSweep := (setActiveD_same _ _ _).trans (endSweep_same _ _ _ _ _)

theorem leaveHold_same (s : State) (k : Axis) : SameOutside s (s.leaveHold k) := by
  unfold State.leaveHold
  split
  · exact abortSweep_same s
  · exact .rfl

/-! ### Axis modes -/

theorem reportSegment_same (s : State) (k : Axis) (n : Half) (b : Bool) : SameOutside s (s.reportSegment k n b) := by
  unfold State.reportSegment
  split
  · split
    · apply SameOutside.of_cl <;> rfl
    · exact .rfl
  · exact .rfl

theorem abortMotion_same (s : State) (k : Axis) : SameOutside s (s.abortMotion k) := by
  unfold State.abortMotion
  exact (setAxis_same _ _ _).trans (SameOutside.foldl (fun s n => reportSegment_same s k n true) _ _)

theorem makeTransition_same (s : State) (k : Axis) (t : TargetMode) : SameOutside s (s.makeTransition k t) := by
  unfold State.makeTransition
  refine (abortMotion_same s k).trans ?_
  dsimp only
  split
  · exact (leaveHold_same _ _).trans (setAxis_same _ _ _)
  · exact setAxis_same _ _ _

theorem applyTransition_same (s : State) (k : Axis) (t : TargetMode) : SameOutside s (s.applyTransition k t) := by
  unfold State.applyTransition
  split
  · exact makeTransition_same s k t
  · exact .rfl

theorem enterSafe_same (s : State) (k : Axis) : SameOutside s (s.enterSafe k) := by
  unfold State.enterSafe
  split
  · exact ((abortMotion_same s k).trans (leaveHold_same _ _)).trans (setAxis_same _ _ _)
  · exact .rfl

theorem handLaunch_same (s : State) (k : Axis) (g : Segment) : SameOutside s (s.handLaunch k g) := by
  unfold State.handLaunch
  dsimp only
  split
  · exact (setAxis_same _ _ _).trans (reportSegment_same _ _ _ _)
  · exact setAxis_same _ _ _

theorem killHalt_same (s : State) (k : Axis) : SameOutside s (s.killHalt k) := by
  unfold State.killHalt
  exact ((abortMotion_same s k).trans (leaveHold_same _ _)).trans (setAxis_same _ _ _)

theorem killPause_same (s : State) (k : Axis) : SameOutside s (s.killPause k) := by
  unfold State.killPause
  exact (abortMotion_same s k).trans (setAxis_same _ _ _)

theorem killAct_same (s : State) (k : Axis) : SameOutside s (s.killAct k) := by
  unfold State.killAct
  split
  · exact killHalt_same s k
  · exact killPause_same s k

theorem returnFromSafe_same (s : State) (k : Axis) (m : Mode) : SameOutside s (s.returnFromSafe k m) := setAxis_same _ _ _

/-! ### The head -/

theorem retire_same (s : State) (o : EntryOutcome) : SameOutside s (s.retire o) := by
  unfold State.retire
  split
  · exact .rfl
  · apply SameOutside.of_cl <;> rfl

theorem setPhase_same (s : State) (p : HeadPhase) : SameOutside s (s.setPhase p) := by
  apply SameOutside.of_cl <;> rfl

theorem writeCues_same (s : State) (c : Byte) : SameOutside s (s.writeCues c) := by
  apply SameOutside.of_cl <;> rfl

theorem retireWait_same (s : State) (m : Byte) (a c : Bool) : SameOutside s (s.retireWait m a c) := by
  unfold State.retireWait
  split
  · exact (writeCues_same _ _).trans (retire_same _ _)
  · exact retire_same _ _

theorem launchAxis_same (e : Entry) (dn : Nat) (sh : Shape) (em : EndMode) (p : State × AxisSet) (k : Axis) :
    SameOutside p.1 (launchAxis e dn sh em p k).1 := by
  unfold launchAxis
  dsimp only
  split
  · split
    · exact handLaunch_same _ _ _
    · exact .rfl
  · exact .rfl

theorem launchAll_same (e : Entry) (dn : Nat) (sh : Shape) (em : EndMode) (l : List Axis) (p : State × AxisSet) :
    SameOutside p.1 (l.foldl (launchAxis e dn sh em) p).1 := by
  induction l generalizing p with
  | nil => exact .rfl
  | cons k l ih => exact (launchAxis_same e dn sh em p k).trans (ih _)

theorem modeAxis_same (t : TargetMode) (p : State × Bool) (k : Axis) : SameOutside p.1 (modeAxis t p k).1 := by
  unfold modeAxis
  split
  · exact makeTransition_same _ _ _
  · exact .rfl

theorem modeAll_same (t : TargetMode) (l : List Axis) (p : State × Bool) : SameOutside p.1 (l.foldl (modeAxis t) p).1 := by
  induction l generalizing p with
  | nil => exact .rfl
  | cons k l ih => exact (modeAxis_same t p k).trans (ih _)

theorem beginLaunch_same (s : State) (e : Entry) (dn : Nat) (sh : Shape) (em : EndMode) (w : Bool) :
    SameOutside s (s.beginLaunch e dn sh em w) := by
  unfold State.beginLaunch
  have h := launchAll_same e dn sh em allAxes (s, 0)
  dsimp only
  split
  · exact h.trans (retire_same _ _)
  · split
    · exact h.trans (setPhase_same _ _)
    · exact h.trans (retire_same _ _)

theorem beginEntry_same (s : State) (e : Entry) : SameOutside s (s.beginEntry e) := by
  unfold State.beginEntry
  split
  · exact beginLaunch_same _ _ _ _ _ _
  · exact beginLaunch_same _ _ _ _ _ _
  · exact setPhase_same _ _
  · split
    · exact retireWait_same _ _ _ _
    · exact setPhase_same _ _
  · exact (writeCues_same _ _).trans (retire_same _ _)
  · exact (modeAll_same _ _ (s, false)).trans (retire_same _ _)

theorem headStep_same {s t : State} (h : s.headStep = some t) : SameOutside s t := by
  obtain ⟨_, e, _, _, ⟨_, rfl⟩ | ⟨_, mask, any, consume, _, _, _, _, rfl⟩ | ⟨aborted, _, rfl⟩⟩ := headStep_cases h
  · exact beginEntry_same s e
  · exact retireWait_same s mask any consume
  · exact retire_same s _

theorem changeCues_same (s : State) (c : Byte) : SameOutside s (s.changeCues c) :=
  changeCues_keeps (P := SameOutside s) (fun t c h => h.trans (writeCues_same t c)) (fun _ _ h g => h.trans (headStep_same g)) s c .rfl

theorem feedCue_same (s : State) (sel : Selector) : SameOutside s (s.feedCue sel) := changeCues_same _ _

/-! ### Taking -/

theorem causeParam_same (s : State) (src : Source) : SameOutside s (s.causeParam src).2 := by
  cases src <;> simp only [State.causeParam] <;> first | exact .rfl | (split <;> exact .rfl)

theorem recordTaking_same (s : State) (c : Cause) : SameOutside s (s.recordTaking c) := by
  apply SameOutside.of_cl <;> simp

theorem levelAction_same (s : State) (l : Level) (m : AxisSet) : SameOutside s (s.levelAction l m) := by
  cases l with
  | one => exact SameOutside.trans (t := s.dampAxes m) (by apply SameOutside.of_cl <;> rfl) (feedCue_same _ _)
  | two =>
    simp only [State.levelAction]
    refine SameOutside.trans ?_ (SameOutside.foldl enterSafe_same _ _)
    exact SameOutside.trans (t := s.setHoldAlert true) (by apply SameOutside.of_cl <;> rfl) (feedCue_same _ _)

theorem clearTaken_same (s : State) (src : Source) : SameOutside s (s.clearTaken src) := by
  unfold State.clearTaken
  dsimp only
  split
  · apply SameOutside.of_cl <;> rfl
  · exact .rfl

theorem take_same (s : State) (l : Level) (src : Source) : SameOutside s (s.take l src) := by
  unfold State.take
  have hs : ∀ t : State, SameOutside t (t.setSeen l) := fun t => by apply SameOutside.of_cl <;> simp
  exact (causeParam_same s src).trans ((recordTaking_same _ _).trans ((levelAction_same _ _ _).trans ((hs _).trans
    ((offerUnasked_same _ _).trans (clearTaken_same _ _)))))

theorem markDue_same (s : State) (d : Due) : SameOutside s (s.markDue d) := by
  cases d <;> (apply SameOutside.of_cl <;> rfl)

theorem recordRise_same (s : State) (src : Source) : SameOutside s (s.recordRise src) := by
  apply SameOutside.of_cl <;> rfl

theorem dropFallen_same (s : State) : SameOutside s s.dropFallen := by
  apply SameOutside.of_cl <;> rfl

/-! ### Settling -/

theorem judge_same (s : State) : SameOutside s s.judge.1 :=
  judge_keeps (P := SameOutside s) (fun t h => h.trans (dropFallen_same t)) (fun t src h => h.trans (recordRise_same t src)) s .rfl

/-- A settling changes nothing outside the axes, the Move Sequencer, the sweep, the Alert Controller and the transmit queue. -/
theorem settle_same (s : State) (raises : List Due) : SameOutside s (s.settle raises) :=
  settle_keeps (P := SameOutside s) (fun t h => h.trans (dropFallen_same t)) (fun t src h => h.trans (recordRise_same t src))
    (fun t n h => h.trans (choose_same t n))
    (fun t d h => h.trans (markDue_same t d)) (fun t l src h => h.trans (take_same t l src))
    (fun _ _ h g => h.trans (headStep_same g)) raises s .rfl

end Sys2Proof.Machine
end

