-- ==== Sys2Proof/Laws/Idle.lean ====
section
/-! SUPPORT. What a step on an empty queue can do, said once. -/

namespace Sys2Proof.Machine

/-- While no command waits, a unit of time passes, or the command of an expiry that is due runs on the state after a choice. -/
theorem idle_cases (s : State) :
    dueExpiries s = [] ∧ s.idle = .next s.tick ∨ ∃ c ∈ dueExpiries s, s.idle = exec c (s.choose (dueExpiries s).length).2 := by
  unfold State.idle
  split
  · rename_i h
    exact .inl ⟨h, rfl⟩
  · rename_i c cs h
    have hlt : (s.choose (cs.length + 1)).1 < (c :: cs).length := by simpa using choose_lt s (Nat.succ_pos cs.length)
    refine .inr ⟨(c :: cs)[(s.choose (cs.length + 1)).1], ?_, ?_⟩
    · rw [h]; exact List.getElem_mem hlt
    · simp [h, List.getElem?_eq_getElem hlt]

/-- A single expiry that is due runs on the state as it is. -/
theorem idle_single {s : State} {c : Instr} (h : dueExpiries s = [c]) : s.idle = exec c s := by
  unfold State.idle
  rw [h]
  rfl

/-- An expiry below its limit changes nothing. -/
theorem expireStale_of_not_due {s : State} {p : StalePort} (h : staleDue s p = false) : s.expireStale p = s := by
  simp [State.expireStale, h]

theorem silenceRunsOut_of_not_due {s : State} (h : silenceDue s = false) : s.silenceRunsOut = s := by
  simp [State.silenceRunsOut, h]

end Sys2Proof.Machine
end

