-- ==== Sys2Proof/Laws/Image.lean ====
section
/-! SUPPORT. The canonical form of a stored image: what the one operation that writes images gives has it, the store's images have it
after reset; and what an image reads back as. -/

namespace Sys2Proof.Machine

/-- Every word listed from index `i` on has an index of at least `i`. -/
theorem imageFrom_index_le (ws : List Half) (i : Nat) : ∀ p ∈ imageFrom i ws, i ≤ p.1 := by
  induction ws generalizing i with
  | nil => simp [imageFrom]
  | cons h hs ih =>
    intro p hp
    have lift : ∀ q ∈ imageFrom (i + 1) hs, i ≤ q.1 := fun q hq => Nat.le_of_succ_le (ih (i + 1) q hq)
    by_cases hz : h = 0
    · rw [imageFrom, if_pos hz] at hp
      exact lift p hp
    · rw [imageFrom, if_neg hz] at hp
      rcases List.mem_cons.mp hp with rfl | hp
      · exact Nat.le_refl i
      · exact lift p hp

/-- A word with correct parity is the unlisted word only when its data is 0. -/
theorem goodWord_eq_zero {h : Half} (hg : goodWord h = goodWord 0) : h = 0 := congrArg StoredWord.data hg

/-- The indices of a written image rise strictly. -/
theorem imageFrom_pairwise (ws : List Half) (i : Nat) : (imageFrom i ws).Pairwise (fun p q => p.1 < q.1) := by
  induction ws generalizing i with
  | nil => simp [imageFrom]
  | cons h hs ih =>
    by_cases hz : h = 0
    · rw [imageFrom, if_pos hz]
      exact ih (i + 1)
    · rw [imageFrom, if_neg hz]
      exact List.pairwise_cons.mpr ⟨fun q hq => imageFrom_index_le hs (i + 1) q hq, ih (i + 1)⟩

/-- A written image lists no word equal to what an unlisted one reads as. -/
theorem imageFrom_listed (ws : List Half) (i : Nat) : ∀ p ∈ imageFrom i ws, p.2 ≠ goodWord 0 := by
  induction ws generalizing i with
  | nil => simp [imageFrom]
  | cons h hs ih =>
    intro p hp
    by_cases hz : h = 0
    · rw [imageFrom, if_pos hz] at hp
      exact ih (i + 1) p hp
    · rw [imageFrom, if_neg hz] at hp
      rcases List.mem_cons.mp hp with rfl | hp
      · exact fun he => hz (goodWord_eq_zero he)
      · exact ih (i + 1) p hp

/-- Writing words gives a canonical image. -/
theorem Image.wf_ofWords (ws : List Half) : (Image.ofWords ws).wf = true := by
  unfold Image.wf Image.ofWords
  rw [Bool.and_eq_true, List.all_eq_true]
  exact ⟨decide_eq_true (imageFrom_pairwise ws 0), fun p hp => by simpa using imageFrom_listed ws 0 p hp⟩

/-- A capture is canonical. -/
theorem capturedImage_wf (s : State) : (capturedImage s).wf = true := Image.wf_ofWords _

/-- The erased image is canonical. -/
theorem Image.wf_nil : Image.wf [] = true := rfl

/-- The store as the part leaves the factory is in its form. -/
theorem Store.wf_factory : Store.factory.wf = true := by decide

/-- Reading a written image at an index before its first word. -/
theorem imageFrom_read_lt (ws : List Half) (i j : Nat) (h : j < i) : Image.read (imageFrom i ws) j = goodWord 0 := by
  unfold Image.read
  have hn : (imageFrom i ws).find? (fun p => p.1 == j) = none := by
    rw [List.find?_eq_none]
    intro p hp
    have := imageFrom_index_le ws i p hp
    simp only [beq_iff_eq]
    omega
  rw [hn]

/-- A written image reads back, with correct parity, the words written and 0 beyond them. -/
theorem imageFrom_read (ws : List Half) (i j : Nat) : Image.read (imageFrom i ws) (i + j) = goodWord (ws.getD j 0) := by
  induction ws generalizing i j with
  | nil => simp [imageFrom, Image.read]
  | cons h hs ih =>
    by_cases hz : h = 0
    · rw [imageFrom, if_pos hz]
      cases j with
      | zero => rw [imageFrom_read_lt hs (i + 1) (i + 0) (by omega)]; simp [hz]
      | succ j => rw [show i + (j + 1) = (i + 1) + j by omega, ih (i + 1) j]; simp
    · rw [imageFrom, if_neg hz]
      cases j with
      | zero => simp [Image.read]
      | succ j =>
        have hne : (i == i + (j + 1)) = false := by simp
        unfold Image.read
        rw [List.find?_cons, hne]
        have := ih (i + 1) j
        rw [show i + 1 + j = i + (j + 1) by omega] at this
        simpa [Image.read] using this

/-- What an image of words reads at each index. -/
theorem Image.read_ofWords (ws : List Half) (j : Nat) : (Image.ofWords ws).read j = goodWord (ws.getD j 0) := by
  have := imageFrom_read ws 0 j
  simpa [Image.ofWords] using this

/-- A word written by a save is not bad. -/
theorem badWord_goodWord (h : Half) : badWord (goodWord h) = false := by simp [badWord, goodWord]

end Sys2Proof.Machine
end

