-- ==== Sys2Proof/Laws/Link.lean ====
section
/-! SUPPORT. What the receive assembler makes of a whole frame. -/

namespace Sys2Proof.Machine

@[simp] theorem setRx_setRx (s : State) (a b : RxState) : (s.setRx a).setRx b = s.setRx b := rfl

theorem feedLoop_cons (fuel : Nat) (b : Byte) (bs : List Byte) (s : State) :
    feedLoop (fuel + 1) (b :: bs) s = feedLoop fuel ((s.takeByte b).2 ++ bs) (s.takeByte b).1 := rfl

theorem feedLoop_nil (fuel : Nat) (s : State) : feedLoop fuel [] s = s := by cases fuel <;> rfl

theorem setRx_self {s : State} {a : RxState} (h : s.cl.rx = a) : s.setRx a = s := by
  subst h; rfl

theorem length_halfBytes (h : Half) : (halfBytes h).length = 2 := rfl

theorem length_covered (k t : Byte) (p : List Byte) : (coveredBytes k t p).length = p.length + 4 := by
  simp [coveredBytes, length_halfBytes]; omega

theorem halfOf_halfBytes (h : Half) : halfOf (h.extractLsb' 8 8) (h.extractLsb' 0 8) = h := by
  unfold halfOf
  ext i hi
  simp only [BitVec.getElem_append, BitVec.getElem_extractLsb']
  split <;> simp_all

/-- The length field of any store that holds at least the two length bytes of the frame. -/
theorem storeLength_covered (k t : Byte) (p rest : List Byte) (h : p.length ≤ 1024) (n : Nat) (hn : 2 ≤ n) :
    storeLength ((coveredBytes k t p ++ rest).take n) = p.length := by
  obtain ⟨m, rfl⟩ : ∃ m, n = m + 2 := ⟨n - 2, by omega⟩
  have e : storeLength ((coveredBytes k t p ++ rest).take (m + 2)) = (halfOfNat p.length).toNat := by
    simp [coveredBytes, halfBytes, storeLength, halfAt, byteAt, halfOf_halfBytes]
  rw [e, halfOfNat, BitVec.toNat_ofNat, Nat.mod_eq_of_lt (by omega)]

/-- Bytes that leave the frame incomplete are held. -/
theorem feed_prefix (s : State) (k t : Byte) (p rest : List Byte) (hp : p.length ≤ 1024) :
    ∀ (n m fuel : Nat), m + n < p.length + 6 → m + n ≤ (coveredBytes k t p ++ rest).length →
      feedLoop (fuel + n) ((coveredBytes k t p ++ rest).drop m) (s.setRx (.inFrame ((coveredBytes k t p ++ rest).take m))) =
      feedLoop fuel ((coveredBytes k t p ++ rest).drop (m + n))
        (s.setRx (.inFrame ((coveredBytes k t p ++ rest).take (m + n)))) := by
  intro n
  induction n with
  | zero => intros; rfl
  | succ n ih =>
    intro m fuel h1 h2
    have hm : m < (coveredBytes k t p ++ rest).length := by omega
    rw [List.drop_eq_getElem_cons hm, show fuel + (n + 1) = (fuel + n) + 1 by omega]
    rw [show m + (n + 1) = (m + 1) + n by omega]
    have ht : (coveredBytes k t p ++ rest).take m ++ [(coveredBytes k t p ++ rest)[m]] =
        (coveredBytes k t p ++ rest).take (m + 1) := by simp [List.take_add_one]
    have hlen : ((coveredBytes k t p ++ rest).take (m + 1)).length = m + 1 := by rw [List.length_take]; omega
    have hb : (s.setRx (.inFrame ((coveredBytes k t p ++ rest).take m))).takeByte (coveredBytes k t p ++ rest)[m] =
        (s.setRx (.inFrame ((coveredBytes k t p ++ rest).take (m + 1))), []) := by
      unfold State.takeByte
      simp only [State.setRx_cl, ht, hlen, setRx_setRx]
      by_cases h0 : m + 1 < 2
      · simp [h0]
      · have hs := storeLength_covered k t p rest hp (m + 1) (by omega)
        rw [if_neg h0, hs, if_neg (by omega), if_pos (by unfold frameSize; omega)]
    rw [feedLoop_cons, hb]
    exact ih (m + 1) fuel (by omega) (by omega)

/-- The last byte of a good frame hands it on (R162, R165). -/
theorem takeByte_last (s : State) (f : Frame) (hp : f.payload.length ≤ 1024) :
    (s.setRx (.inFrame
        (coveredBytes f.kind f.tag f.payload ++ [(crc16 (coveredBytes f.kind f.tag f.payload)).extractLsb' 8 8]))).takeByte
      ((crc16 (coveredBytes f.kind f.tag f.payload)).extractLsb' 0 8) = ((s.setRx .hunt).receive f, []) := by
  obtain ⟨k, t, p⟩ := f
  simp only at hp ⊢
  set c := coveredBytes k t p with hc
  set x := crc16 c with hx
  have hlc : c.length = p.length + 4 := by rw [hc, length_covered]
  have hst : c ++ [x.extractLsb' 8 8] ++ [x.extractLsb' 0 8] = c ++ halfBytes x := by simp [halfBytes]
  have hsl : storeLength (c ++ halfBytes x) = p.length := by
    have := storeLength_covered k t p (halfBytes x) hp (c.length + 2) (by omega)
    rwa [← hc, List.take_of_length_le (by simp [length_halfBytes])] at this
  have hgood : storeGood (c ++ halfBytes x) = true := by
    unfold storeGood
    rw [hsl, ← hlc, List.take_left' rfl]
    have : halfAt (c ++ halfBytes x) c.length = x := by
      simp [halfAt, byteAt, halfBytes, halfOf_halfBytes]
    rw [this, ← hx]; simp
  have hframe : storeFrame (c ++ halfBytes x) = ⟨k, t, p⟩ := by
    unfold storeFrame
    rw [hsl]
    simp [hc, coveredBytes, byteAt, halfBytes]
  unfold State.takeByte
  simp only [State.setRx_cl, hst, setRx_setRx]
  rw [if_neg (by simp [length_halfBytes]), hsl, if_neg (by omega), if_neg (by unfold frameSize; simp [length_halfBytes, hlc]),
    if_pos hgood, hframe]

/-- The bytes of a frame that arrive in HUNT are received as that frame (R161, R162, R165). -/
theorem feedFrame_hunt {s : State} {f : Frame} (h : s.cl.rx = .hunt) (hp : f.payload.length ≤ 1024) :
    s.feedFrame f = s.receive f := by
  set c := coveredBytes f.kind f.tag f.payload with hc
  set x := crc16 c with hx
  have hlc : c.length = f.payload.length + 4 := by rw [hc, length_covered]
  have hw : f.wire = 0xC5 :: (c ++ halfBytes x) := by simp [Frame.wire, hc, hx]
  unfold State.feedFrame State.feedLink
  rw [hw]
  have hfuel : ∃ g, feedFuel (heldCount s + (0xC5 :: (c ++ halfBytes x)).length) = (g + 1 + (c.length + 1)) + 1 := by
    refine ⟨feedFuel (heldCount s + (0xC5 :: (c ++ halfBytes x)).length) - (c.length + 3), ?_⟩
    have : c.length + 3 ≤ feedFuel (heldCount s + (0xC5 :: (c ++ halfBytes x)).length) := by
      unfold feedFuel
      simp only [List.length_cons, List.length_append, length_halfBytes]
      nlinarith
    omega
  obtain ⟨g, hg⟩ := hfuel
  rw [hg, feedLoop_cons]
  have h0 : s.takeByte 0xC5 = (s.setRx (.inFrame []), []) := by simp [State.takeByte, h]
  rw [h0]
  have hpre := feed_prefix s f.kind f.tag f.payload (halfBytes x) hp (c.length + 1) 0 (g + 1) (by omega)
    (by rw [← hc]; simp [length_halfBytes])
  simp only [← hc, Nat.zero_add, List.drop_zero, List.take_zero] at hpre
  simp only [List.nil_append]
  rw [hpre]
  have htk : (c ++ halfBytes x).take (c.length + 1) = c ++ [x.extractLsb' 8 8] := by
    simp [halfBytes, List.take_append]
  have hdr : (c ++ halfBytes x).drop (c.length + 1) = [x.extractLsb' 0 8] := by
    simp [halfBytes, List.drop_append]
  rw [htk, hdr, feedLoop_cons, takeByte_last s f hp, setRx_self h]
  exact feedLoop_nil _ _

end Sys2Proof.Machine
end

