-- ==== Sys2Proof/Laws/Serve.lean ====
section
/-! SUPPORT. Serving leaves the assembler, the dispatcher, the request buffer and the queue of commands alone; so a request that
arrives on a ready link is answered in one step. -/

namespace Sys2Proof.Machine

/-- The link's own state and the command queue are the same. -/
abbrev SameLink (s t : State) : Prop :=
  t.cl.rx = s.cl.rx ∧ t.cl.dispatcher = s.cl.dispatcher ∧ t.cl.requests = s.cl.requests ∧ t.pending = s.pending

/-- A state whose link registers compute to those of another. -/
theorem SameLink.untouched {s t : State} (rx : t.cl.rx = s.cl.rx := by rfl)
    (dispatcher : t.cl.dispatcher = s.cl.dispatcher := by rfl) (requests : t.cl.requests = s.cl.requests := by rfl)
    (pending : t.pending = s.pending := by rfl) : SameLink s t := ⟨rx, dispatcher, requests, pending⟩

theorem SameLink.rfl {s : State} : SameLink s s := .untouched

theorem SameLink.trans {s t u : State} (h : SameLink s t) (g : SameLink t u) : SameLink s u :=
  ⟨g.1.trans h.1, g.2.1.trans h.2.1, g.2.2.1.trans h.2.2.1, g.2.2.2.trans h.2.2.2⟩

theorem SameOutside.link {s t : State} (h : SameOutside s t) : SameLink s t := by
  obtain ⟨_, _, _, _, _, _, hp, hc⟩ := h
  exact ⟨by rw [hc], by rw [hc], by rw [hc], hp⟩

theorem SameLink.foldl {α : Type} {f : State → α → State} (hf : ∀ s a, SameLink s (f s a)) (l : List α) (s : State) :
    SameLink s (l.foldl f s) := by
  induction l generalizing s with
  | nil => exact .rfl
  | cons a l ih => exact (hf s a).trans (ih _)

theorem settle_link (s : State) (r : List Due) : SameLink s (s.settle r) := (settle_same s r).link

/-! ### One computation -/

theorem settleKill_link (s : State) (k : Axis) : SameLink s (s.settleKill k) := by
  have h : SameLink s (s.settleAwaiting k) := by
    unfold State.settleAwaiting
    split
    · exact (killAct_same s k).link
    · exact .rfl
  unfold State.settleKill
  dsimp only
  split
  · exact h
  · exact h.trans (setAxis_same _ _ _).link

theorem discardLaunch_link (s : State) (k : Axis) : SameLink s (s.discardLaunch k) := by
  unfold State.discardLaunch
  split
  · exact .rfl
  · exact ((setAxis_same _ _ _).trans (reportSegment_same _ _ _ _)).link

theorem installLaunch_link (s : State) (k : Axis) : SameLink s (s.installLaunch k) := by
  unfold State.installLaunch
  split
  · exact .rfl
  · split
    · dsimp only
      split
      · exact ((setAxis_same _ _ _).trans (reportSegment_same _ _ _ _)).link
      · exact (setAxis_same _ _ _).link
    · exact ((leaveHold_same _ _).trans (setAxis_same _ _ _)).link
    · exact (setAxis_same _ _ _).link
    · exact (setAxis_same _ _ _).link
    · exact discardLaunch_link _ _
    · exact discardLaunch_link _ _
    · exact discardLaunch_link _ _

theorem swapCheck_link (s : State) (k : Axis) : SameLink s (s.swapCheck k) := by
  unfold State.swapCheck
  dsimp only
  split
  · exact (setAxis_same _ _ _).link
  · exact .rfl

theorem estimate_link (s : State) (k : Axis) (n : Nat) : SameLink s (s.estimate k n) := by
  have h : SameLink s (s.jointStep k) := by
    unfold State.jointStep
    dsimp only
    split
    · exact .untouched
    · exact .rfl
  exact h.trans (setAxis_same _ _ _).link

theorem handCommand_link (s : State) (k : Axis) (c : DriveCommand) : SameLink s (s.handCommand k c).1 :=
  .untouched

theorem evaluateSweep_same (s : State) : SameOutside s s.evaluateSweep := by
  unfold State.evaluateSweep
  split
  · exact (setActiveD_same _ _ _).trans (endSweep_same _ _ _ _ _)
  · exact ((setActiveD_same _ _ _).trans (setStagedD_same _ _ _)).trans (endSweep_same _ _ _ _ _)

theorem countSweep_same (s : State) (g : Int) : SameOutside s (s.countSweep g) := by
  have hs : ∀ (t : State) (w : Sweep), SameOutside t { t with sw := w } := fun t w => by apply SameOutside.of_cl <;> rfl
  have hw : ∀ t : State, SameOutside t t.completeWindow := fun t => by
    unfold State.completeWindow
    dsimp only
    split
    · exact (hs t _).trans ((setActiveD_same _ _ _).trans (hs _ _))
    · exact (hs t _).trans (evaluateSweep_same _)
  unfold State.countSweep
  dsimp only
  split
  · exact (hs s _).trans (hw _)
  · exact hs s _

theorem computeAxis_link (s : State) (k : Axis) (n : Nat) : SameLink s (s.computeAxis k n).1 := by
  unfold State.computeAxis
  dsimp only
  have h1 : ∀ t : State, SameLink t (if heldByPause t k = true then t.discardLaunch k else t.installLaunch k) := fun t => by
    split
    · exact discardLaunch_link t k
    · exact installLaunch_link t k
  have h2 : ∀ (t : State) (b : Bool) (g : Int), SameLink t (if b = true then t.countSweep g else t) := fun t b g => by
    split
    · exact (countSweep_same t g).link
    · exact .rfl
  exact (settleKill_link s k).trans ((h1 _).trans ((swapCheck_link _ k).trans (((judge_same _).link).trans
    ((estimate_link _ k n).trans (((setAxis_same _ _ _).link).trans ((handCommand_link _ _ _).trans (h2 _ _ _)))))))

theorem handOver_link (s : State) (k : Axis) (p : Passed) : SameLink s (s.handOver k p) := by
  unfold State.handOver
  dsimp only
  have h1 : SameLink s (if p.marked = true then s.feedCue (.mark k) else s) := by
    split
    · exact (feedCue_same _ _).link
    · exact .rfl
  split
  · exact h1.trans (settle_link _ _)
  · exact h1.trans ((settle_link _ _).trans (((reportSegment_same _ _ _ _).link).trans ((settle_link _ _).trans
      (((feedCue_same _ _).link).trans (settle_link _ _)))))

theorem compute_link (s : State) (k : Axis) (n : Nat) : SameLink s (s.compute k n) :=
  (computeAxis_link s k n).trans (handOver_link _ _ _)

/-! ### A loop frame -/

theorem countFrame_same (s : State) : SameOutside s s.countFrame := by
  unfold State.countFrame
  split
  · split
    · split
      · exact retire_same _ _
      · exact setPhase_same _ _
    · split
      · exact retire_same _ _
      · exact setPhase_same _ _
    · exact .rfl
  · exact .rfl

theorem reportStep_same (s : State) (acc : List Byte) (r : ReportStep) : SameOutside s (s.reportStep acc r).1 := by
  cases r <;> first | exact .rfl | exact offerUnasked_same _ _

theorem frameTask_link (s : State) (steps : List ReportStep) (acc : List Byte) (t : FrameTask) :
    SameLink s (s.frameTask steps acc t).1 := by
  cases t
  · exact compute_link _ _ _
  · exact ((countFrame_same s).link).trans (settle_link _ _)
  · cases steps with
    | nil => exact .rfl
    | cons r rest => exact (reportStep_same s acc r).link

theorem runTasks_link (fuel : Nat) (ts : List FrameTask) (steps : List ReportStep) (acc : List Byte) (s : State) :
    SameLink s (runTasks fuel ts steps acc s) := by
  induction fuel generalizing ts steps acc s with
  | zero => exact .rfl
  | succ n ih =>
    cases ts with
    | nil => exact .rfl
    | cons t ts =>
      unfold runTasks
      exact ((choose_same s _).link).trans ((frameTask_link _ _ _ _).trans (ih _ _ _ _))

theorem takeFrame_link (s : State) : SameLink s s.takeFrame := by
  unfold State.takeFrame
  exact SameLink.trans (t := s.beginFrame) .untouched (runTasks_link _ _ _ _ _)

/-! ### Serving -/

theorem makeStale_link (s : State) (p : StalePort) : SameLink s (s.makeStale p) := by
  cases p <;> exact .untouched

theorem rejudgeStale_link (s : State) (u : SenUnit) : SameLink s (s.rejudgeStale u) := by
  unfold State.rejudgeStale
  apply SameLink.foldl
  intro t p
  split
  · exact makeStale_link t p
  · exact .rfl

theorem writeSetup_link (s : State) (x : Setup) (w : SetupWritten) : SameLink s (s.writeSetup x w) := by
  have h0 : SameLink s { s with cl := { s.cl with setup := x } } := .untouched
  have h1 : ∀ t : State, SameLink t (if w.silence = true then t.rejudgeSilence else t) := fun t => by
    split
    · unfold State.rejudgeSilence
      split
      · exact .untouched
      · exact .rfl
    · exact .rfl
  have h2 : ∀ (t : State) (b : Bool) (u : SenUnit), SameLink t (if b = true then t.rejudgeStale u else t) := fun t b u => by
    split
    · exact rejudgeStale_link t u
    · exact .rfl
  exact h0.trans ((h1 _).trans ((h2 _ _ _).trans ((h2 _ _ _).trans (h2 _ _ _))))

theorem applySetup_link (s : State) (f : SetupFields) : SameLink s (s.applySetup f) := by
  unfold State.applySetup
  exact SameLink.trans (t := s.setCueTable _) .untouched ((writeSetup_link _ _ _).trans (settle_link _ _))

theorem applyImage_link (s : State) (img : Image) : SameLink s (s.applyImage img) := by
  unfold State.applyImage State.writeImage
  refine SameLink.trans ?_ (settle_link _ _)
  refine SameLink.trans ?_ (writeSetup_link _ _ _)
  exact .untouched

theorem loadSlot_link (s : State) (k : Nat) : SameLink s (s.loadSlot k).1 := by
  have hr : ∀ a b : Nat, SameLink s (s.reportParity a b) := fun a b => by
    unfold State.reportParity
    exact SameLink.trans (t := { s with ps := { s.ps with parityFlag := true, lastBad := some (a, b) } })
      .untouched (settle_link _ _)
  unfold State.loadSlot
  dsimp only
  split
  · exact applyImage_link _ _
  · split
    · exact hr _ _
    · exact (hr _ _).trans (applyImage_link _ _)

theorem applyMode_same (s : State) (m : AxisSet) (t : Option TargetMode) (d : Option Bool) : SameOutside s (s.applyMode m t d) := by
  have hd : ∀ (x : State) (b : Bool), SameOutside x (x.setDamp m b) := fun x b => by apply SameOutside.of_cl <;> rfl
  have h1 : ∀ t : TargetMode, SameOutside s ((axesOf m).foldl (fun s k => s.applyTransition k t) s) :=
    fun t => SameOutside.foldl (fun s k => applyTransition_same s k t) _ _
  unfold State.applyMode
  cases t <;> cases d
  · exact .rfl
  · exact hd _ _
  · exact h1 _
  · exact (h1 _).trans (hd _ _)

theorem resolve2_link (s : State) : SameLink s s.resolve2 := by
  have h1 : SameLink s ((axesOf (returningAxes s)).foldl State.returnAxis s) := by
    apply SameLink.foldl
    intro t k
    unfold State.returnAxis
    split
    · exact (returnFromSafe_same _ _ _).link
    · exact .rfl
  have h2 : ∀ t : State, SameLink t t.refreshTruths := fun t => by
    unfold State.refreshTruths
    exact ((judge_same t).link).trans (SameLink.foldl (fun t src => (markDue_same t _).link) _ _)
  have h3 : ∀ t : State, SameLink t (t.endService2.settle []) := fun t =>
    SameLink.trans (t := t.endService2) .untouched (settle_link _ _)
  have h4 : ∀ t : State, SameLink t ((t.setHoldAlert false).settle []) := fun t =>
    SameLink.trans (t := t.setHoldAlert false) .untouched (settle_link _ _)
  unfold State.resolve2
  dsimp only
  split
  · exact h1.trans ((h2 _).trans (h3 _))
  · exact h1.trans ((h2 _).trans ((h3 _).trans (h4 _)))

theorem brakeAll_link (s : State) : SameLink s s.brakeAll := .untouched

theorem takePark_link (s : State) : SameLink s s.takePark := by
  unfold State.takePark
  dsimp only
  generalize s.brakeAll.si.close = x
  exact SameLink.trans (brakeAll_link s) .untouched

/-- A request's rule leaves the link's own state alone. -/
theorem serveRule_link (s : State) (r : Request) : SameLink s (serveRule s r).state := by
  have hset : ∀ (t u : State) (d : List Due), SameLink t u → SameLink t (u.settle d) := fun t u d h => h.trans (settle_link _ _)
  cases r <;> simp only [serveRule]
  case ident o => unfold serveIdent; dsimp only; split <;> exact .untouched
  case restart => unfold serveRestart; split <;> exact .rfl
  case halt =>
    show SameLink s s.takeHalt
    unfold State.takeHalt
    split
    · exact .rfl
    · exact .untouched
  case run =>
    show SameLink s s.takeRun
    unfold State.takeRun
    split
    · exact .untouched
    · exact .rfl
  case step => unfold serveStep; split; exacts [takeFrame_link s, .rfl]
  case setup f => unfold serveSetup; split; exacts [applySetup_link s f, .rfl]
  case state m => unfold serveState; split <;> exact .rfl
  case mode m t d =>
    unfold serveMode
    split
    · exact .rfl
    · rename_i t d _
      cases t <;> dsimp only <;> split
      all_goals first | exact .rfl | exact hset _ _ _ (applyMode_same _ _ _ _).link
  case demand m rs => unfold serveDemand; split <;> exact .untouched
  case tune a ps =>
    unfold serveTune
    split
    · exact .rfl
    · dsimp only; split; exacts [(setAxis_same _ _ _).link, .rfl]
  case tuneRead a c => unfold serveTuneRead; split <;> exact .rfl
  case apply m => unfold serveApply; split <;> exact .untouched
  case queueAdd es =>
    unfold serveQueueAdd
    split
    · exact .rfl
    · split
      · exact .rfl
      · split
        · exact .rfl
        · exact hset _ _ _ .untouched
  case queueCtrl a =>
    unfold serveQueueCtrl
    split
    · exact hset _ _ _ .untouched
    · exact .untouched
    · exact .untouched
    · exact .rfl
  case queueRead => exact .rfl
  case wptWrite a rs => unfold serveWptWrite; split; exact .rfl; split <;> exact .untouched
  case wptRead a n => unfold serveWptRead; split <;> exact .rfl
  case wptLock f => unfold serveWptLock; split <;> exact .untouched
  case cue c e ps =>
    unfold serveCue; split
    exacts [hset _ _ _ (SameLink.trans (t := s.setCueTable _) .untouched (changeCues_same _ _).link), .rfl]
  case sweep a lo hi w q =>
    unfold serveSweep
    split
    · exact .rfl
    · split
      · exact .rfl
      · split
        · exact .rfl
        · split <;> exact .untouched
  case sweepStop => unfold serveSweepStop; split; exacts [(abortSweep_same s).link, .rfl]
  case sweepRead => exact .rfl
  case alertRead o => unfold serveAlertRead; dsimp only; split <;> exact .untouched
  case alertCfg rs =>
    unfold serveAlertCfg
    split
    · exact .rfl
    · split
      · exact .rfl
      · exact hset _ _ _ .untouched
  case resolve l =>
    unfold serveResolve
    split
    · split
      · exact hset _ _ _ .untouched
      · exact .rfl
    · split
      · exact resolve2_link s
      · exact .rfl
    · exact .rfl
  case alertTest m p => unfold serveAlertTest; split; exacts [hset _ _ _ .untouched, .rfl]
  case alertCancel m => unfold serveAlertCancel; split <;> exact .untouched
  case storeArm o => unfold serveStoreArm; split; exact .rfl; split <;> exact .untouched
  case storeSave k => unfold serveStoreSave; split <;> exact .untouched
  case storeErase k => unfold serveStoreErase; split <;> exact .untouched
  case storeLoad k =>
    unfold serveStoreLoad
    split
    · exact .rfl
    · split
      · exact .rfl
      · split
        · exact .rfl
        · dsimp only; exact loadSlot_link s k.toNat
  case storeStatus o => unfold serveStoreStatus; dsimp only; split <;> exact .untouched
  case storeProtect c f => unfold serveStoreProtect; split <;> exact .untouched
  case park => unfold servePark; split; exacts [.rfl, takePark_link s]
  case unpark => unfold serveUnpark; split; exacts [hset _ _ _ .untouched, .rfl]
  case reportPlan k i => unfold serveReportPlan; split <;> exact .untouched

theorem serve_link (s : State) (r : Request) : SameLink s (serve s r).state := by
  unfold serve
  split
  · exact .rfl
  · exact serveRule_link s r

theorem serveFrame_link (s : State) (f : Frame) : SameLink s (serveFrame s f).state := by
  unfold serveFrame
  split
  · exact .rfl
  · exact .rfl
  · exact .rfl
  · exact serve_link s _

/-! ### A request on a ready link -/

/-- Answering leaves the request buffer alone. -/
theorem answer_requests (s : State) (f : Frame) : (s.answer f).cl.requests = s.cl.requests := by
  have h := (serveFrame_link s f).2.2.1
  unfold State.answer
  dsimp only
  split
  · unfold State.deliverRestart; split <;> exact h
  · unfold State.deliver; split <;> exact h

theorem dispatchLoop_empty (n : Nat) (s : State) (h : s.cl.requests = []) : dispatchLoop n s = s := by
  cases n with
  | zero => rfl
  | succ n =>
    unfold dispatchLoop
    split
    · rename_i hq; rw [h] at hq; cases hq
    · rfl

/-- The silence timer's restart leaves a part at rest at rest, unless the console had been given up as silent. -/
theorem atRest_restartSilence {s : State} (h : AtRest s) (hs : s.cl.silence ≠ .expired) : AtRest s.restartSilence := by
  refine atRest_of h rfl (fun src => ?_) (headStep_none_of_ms (s := s) (t := s.restartSilence) rfl rfl h.2.2.2)
  cases src <;> try rfl
  simp [conditionTruth, hs]

/-- A frame received on a ready link is answered at once, in the state it arrives in. -/
theorem receive_ready {s : State} (h : LinkReady s) (f : Frame) : s.receive f = s.arrived.answer f := by
  obtain ⟨_, hd, hq, hs, hr⟩ := h
  have h1 : (s.restartSilence).settle [] = s.restartSilence := settle_atRest (atRest_restartSilence hr hs)
  unfold State.receive
  rw [h1]
  have h2 : s.restartSilence.offerRequest f = s.arrived.setRequests [f] := by
    have hp : restartPending s.restartSilence = false := by simp [restartPending, hd]
    unfold State.offerRequest
    simp only [hp, State.restartSilence_cl, hq]
    rfl
  rw [h2]
  show dispatchLoop 5 (s.arrived.setRequests [f]) = _
  have h3 : dispatchLoop 5 (s.arrived.setRequests [f]) =
      dispatchLoop 4 (((s.arrived.setRequests [f]).setRequests []).answer f) := by
    conv_lhs => unfold dispatchLoop
    simp [State.arrived, hd]
  have h4 : (s.arrived.setRequests [f]).setRequests [] = s.arrived := by
    have : s.arrived.cl.requests = [] := hq
    show s.arrived.setRequests [] = s.arrived
    rw [← this]
    rfl
  rw [h3, h4]
  apply dispatchLoop_empty
  rw [answer_requests]
  exact hq

/-- A whole good frame on a ready link is answered at once. -/
theorem feedFrame_ready {s : State} (h : LinkReady s) {f : Frame} (hp : f.payload.length ≤ 1024) :
    s.feedFrame f = s.arrived.answer f := by
  rw [feedFrame_hunt h.1 hp, receive_ready h]

/-- A request that reads back from its bytes, sent on a ready link, is served and answered at once; RESTART apart. -/
theorem feedRequest_ready {s : State} (h : LinkReady s) {tag : Byte} {r : Request} (hp : r.payload.length ≤ 1024)
    (hr : parseRequest r.kind r.payload = .request r) (hk : r.kind ≠ 0x02) :
    s.feedRequest tag r =
      (serve s.arrived r).state.deliver (replyTo ⟨r.kind, tag, r.payload⟩ (serve s.arrived r).status (serve s.arrived r).items) := by
  unfold State.feedRequest
  rw [feedFrame_ready h hp]
  unfold State.answer serveFrame
  simp only [hr, restartAccepted, hk, decide_false, Bool.false_and, Bool.false_eq_true, if_false]

/-- Outside PARKED a request is served under its own rule. -/
theorem serve_running {s : State} (h : s.le.park ≠ .parked) (r : Request) : serve s r = serveRule s r := by
  unfold serve
  rw [if_neg]
  exact fun g => h g.1

end Sys2Proof.Machine
end

