-- ==== Sys2Proof/Tests/Slice0.lean ====
section
/-! SUPPORT. Tests: the well-formedness smoke, the manual's worked examples, one step per command on small states, and for each
statement with hypotheses a state and operands that meet them. Expected values are the manual's own or worked by hand from it. -/

set_option Elab.async false

namespace Sys2Proof.Tests

open Sys2Proof Sys2Proof.Machine

/-! ### Helpers -/

/-- The state after a command; the state itself if the command stopped (none does). -/
def after (i : Instr) (s : State) : State :=
  match exec i s with
  | .next t => t
  | _ => s

/-- The frame that the command put at the tail of the transmit queue. -/
def said (i : Instr) (s : State) : Option Frame := (after i s).cl.txQueue.getLast?

/-- The state after reset once every unit and encoder has sent a record (accel 1000 mg), with the open orders resolved to the first
alternative. -/
def base : State :=
  { State.reset with
    si :=
      { sen := State.reset.si.sen.mapUnit (fun _ p => { p with fresh := true, slot := { p.slot with accel := 1000 } })
        enc := State.reset.si.enc.mapAxis (fun _ p => { p with fresh := true }) }
    schedule := List.replicate 40 0 }

/-- `base` with axis `k` changed. -/
def withAxis (k : Axis) (f : AxisRec → AxisRec) : State := base.setAxis k (f (base.axis k))

/-- `base` with axis `k` in a mode. -/
def inMode (k : Axis) (m : Mode) : State := withAxis k (fun a => { a with mode := m })

/-- `base` with the Move Sequencer changed. -/
def withMs (f : Sequencer → Sequencer) : State := { base with ms := f base.ms }

/-- `base` with the Console Link changed. -/
def withCl (f : Console → Console) : State := { base with cl := f base.cl }

/-- `base` with the Profile Store changed. -/
def withPs (f : Store → Store) : State := { base with ps := f base.ps }

/-- `base` parked. -/
def parkedState : State := { base with le := { base.le with park := .parked, frameTimer := false } }

/-- An inertial record: rates 1, 2, 3, levelPitch 256, levelRoll 512, accel 1000, with its CRC. -/
def sample (seq status : Byte) : List Byte :=
  let b : List Byte := [0xB0, seq, 0, 1, 0, 2, 0, 3, 0, 0, 1, 0, 0, 0, 2, 0, 3, 232, status]
  b ++ [crc8 b]

/-- An encoder record with its CRC. -/
def encSample (a b c : Byte) : List Byte := [a, b, c, crc8 [a, b, c]]

/-- A driver report with its CRC. -/
def drvSample (status : Byte) : List Byte := [1, 44, 25, status, crc8 [1, 44, 25, status]]

/-! ### Well-formedness: each check refuses an ill-formed command -/

theorem test_wf_inertial_length : Instr.wf (.inertialSampleRecord .tip (List.replicate 19 0)) = false := by decide
theorem test_wf_encoder_length : Instr.wf (.encoderRecord .pan [1, 2, 3]) = false := by decide
theorem test_wf_report_length : Instr.wf (.driverReport .roll [1, 2, 3, 4, 5, 6]) = false := by decide
theorem test_wf_frame_length : Instr.wf (.goodFrame 1 0 (List.replicate 1025 0)) = false := by decide +kernel
theorem test_wf_length_error : Instr.wf (.lengthError 4 0) = false ∧ Instr.wf (.lengthError 4 1) = true := by decide
theorem test_wf_crc_error_is_wrong :
    let c := crc16 (coveredBytes 3 7 [])
    Instr.wf (.crcError 3 7 [] (c.extractLsb' 8 8) (c.extractLsb' 0 8)) = false := by decide +kernel
theorem test_wf_crc_error_length : Instr.wf (.crcError 3 7 (List.replicate 1025 0) 0 0) = false := by decide +kernel
theorem test_wf_unknown_kind : Instr.wf (.unknownKind 0x03 0 []) = false ∧ Instr.wf (.unknownKind 0x07 0 []) = true := by decide
theorem test_wf_unknown_length : Instr.wf (.unknownKind 0x07 0 (List.replicate 1025 0)) = false := by decide +kernel
theorem test_wf_demand_count : Instr.wf (.demand 0 3 [5]) = false ∧ Instr.wf (.demand 0 3 [5, 6]) = true := by decide +kernel
theorem test_wf_tune_count : Instr.wf (.tune 0 0 (List.replicate 256 ⟨0, 0⟩)) = false := by decide +kernel
theorem test_wf_queue_count : Instr.wf (.queueAdd 0 (List.replicate 256 (.cue 0 0 0))) = false := by decide +kernel
theorem test_wf_shift_deltas : Instr.wf (.queueAdd 0 [.shift 0 5 [9] 1 0]) = false := by decide
theorem test_wf_wpt_count : Instr.wf (.wptWrite 0 0 (List.replicate 256 ⟨0, [], 0⟩)) = false := by decide +kernel
theorem test_wf_wpt_offsets : Instr.wf (.wptWrite 0 0 [⟨2, [], 0⟩]) = false := by decide
theorem test_wf_cue_count : Instr.wf (.cue 0 0 0 (List.replicate 256 ⟨0, 0, 0⟩)) = false := by decide +kernel
theorem test_wf_cfg_count : Instr.wf (.alertCfg 0 (List.replicate 256 ⟨0, 1, 1, 1⟩)) = false := by decide +kernel
theorem test_wf_payload_fits : (Request.demand 0 (List.replicate 600 0)).wf = false := by decide +kernel

/-! ### Codes on the lines -/

/-- The check value of CRC-8 with polynomial 0x07 over the digits 1 to 9 (R2's parameters). -/
theorem test_crc8_check : crc8 [0x31, 0x32, 0x33, 0x34, 0x35, 0x36, 0x37, 0x38, 0x39] = 0xF4 := by decide +kernel

/-- The check value of CRC-16 with polynomial 0x1021 from 0xFFFF over the same digits (R161's parameters). -/
theorem test_crc16_check : crc16 [0x31, 0x32, 0x33, 0x34, 0x35, 0x36, 0x37, 0x38, 0x39] = 0x29B1 := by decide +kernel

/-- No row of the table gives bits. -/
theorem test_no_word_spells_a_command : decodeTableWord 0 0 = none ∧ (base.withFetchWord 0 0) = base := ⟨rfl, rfl⟩

/-- Drive word (09, section 9.9): command code in bits 15..13, request in bit 12, demand code below; R62's worked code 2177. -/
theorem test_drive_word_bytes : (⟨.drive, true, demandCode 129⟩ : DriveWord).head = [0x38, 0x81] := by decide
theorem test_axis_record_is_84_bytes : (axisRecord base .pan).length = 84 := by decide +kernel
theorem test_sensor_record_is_126_bytes : (sensorRecord base).length = 126 := by decide +kernel
theorem test_image_is_1046_words : (capturedWords base).length = 1046 := by decide +kernel

/-! ### The manual's worked examples -/

/-- R11, unwrap examples: the change of J by the five rows of the table. -/
def unwrapped (last p : BitVec 20) : Int :=
  (((withAxis .pan (fun a => { a with lastEncoder := some last })).setEnc .pan
    { base.si.enc.pan with position := p, newPos := true }).jointStep .pan |>.axis .pan).j.toInt
theorem test_unwrap_rows :
    [unwrapped 1048000 200, unwrapped 200 1048000, unwrapped 0 524288, unwrapped 524288 0, unwrapped 300000 300010] =
      [12416, -12416, -8388608, -8388608, 160] := by decide +kernel

/-- R12, seed examples. -/
def seeded (p : BitVec 20) : Int :=
  (((base.setEnc .pan { base.si.enc.pan with position := p, newPos := true }).jointStep .pan).axis .pan).j.toInt
theorem test_seed_rows :
    [seeded 1000, seeded 524287, seeded 524288, seeded 1048575] = [16000, 8388592, -8388608, -16] := by decide +kernel

/-- R14's example: H wraps. -/
theorem test_heading_wraps :
    (({ base with le := { base.le with heading := 2147483000 } } : State).setSen .base
      { base.si.sen.base with fresh := true, slot := { base.si.sen.base.slot with yaw := 1000 } }).beginFrame.le.heading.toInt =
      -2147483296 := by decide +kernel

/-- 1.11, events 2 and 3 on SEN1: a duplicate, then a gap of 7. -/
def tipAt (seq : Byte) : State :=
  base.setSen .tip { base.si.sen.tip with fresh := true, elapsed := 9, seqRef := some seq, accepted := 101, rejected := 2 }
theorem test_sen_duplicate :
    let p := (after (.inertialSampleRecord .tip (sample 251 0)) (tipAt 251)).si.sen.tip
    (p.duplicate, p.accepted, p.elapsed) = (1, 101, 9) := by decide +kernel
theorem test_sen_gap :
    let p := (after (.inertialSampleRecord .tip (sample 3 0)) (tipAt 251)).si.sen.tip
    (p.accepted, p.missed, p.elapsed, p.seqRef, p.slot.roll, p.slot.levelRoll, p.slot.accel) = (102, 7, 0, some 3, 3, 512, 1000) := by
  decide +kernel

/-- 3.3, RATE ramp example, computations 1 to 4 and 6 to 9. -/
def ramp (rdEff rdTarget : Half) : Int × Int :=
  let b := (targetRule .pan { base.axes.pan with mode := .rate, rdEff := rdEff, rdTarget := rdTarget, t := 5000000 } 1).1
  (b.rdEff.toInt, b.t.toInt - 5000000)
theorem test_rate_ramp :
    [ramp 0 200, ramp 64 200, ramp 128 200, ramp 192 200, ramp 200 0, ramp 136 0, ramp 72 0, ramp 8 0] =
      [(64, 64), (128, 128), (192, 192), (200, 200), (136, 136), (72, 72), (8, 8), (0, 0)] := by decide +kernel

/-- 3.5, SAFE examples: Ks 20000, Usafe 400. -/
def safeAt (jlock : Int) : Int := safeDemand { base.axes.pan with jlock := BitVec.ofInt 32 jlock }
theorem test_safe_rows :
    [safeAt 26, safeAt 27, safeAt (-26), safeAt (-27), safeAt 10000, safeAt (-10000), safeAt 100000, safeAt 30000000] =
      [0, 1, 0, -1, 191, -191, 400, 400] := by decide +kernel

/-- 3.7, worked case: one computation of TILT. -/
def worked : State :=
  ((withAxis .tilt (fun a =>
    { a with
      mode := .hold, t := 1000000, w := 999000, i := 50000, uPrev := 100
      active :=
        { a.active with
          kp := 40000, ki := 200, kr := 3000, kf := 2000, umax := 1500, l := 40, imax := 1000000, levelShift := 10
          levelCap := 64 } })).setSen .head
    { base.si.sen.head with
      fresh := true, slot := { base.si.sen.head.slot with pitch := BitVec.ofInt 16 (-200), levelPitch := 990000, accel := 1000 } })
def workedRing : State := { worked with le := { worked.le with ring := ⟨0, 150, 0⟩ :: worked.le.ring.drop 1 } }
theorem test_worked_computation :
    let t := workedRing.compute .tilt 1
    let a := t.axis .tilt
    (a.w, a.t, a.i, a.uPrev, a.coastCount) = (998792, 1000000, 51208, 129, 0) ∧
      (t.dl.get .tilt).lastWord = some ⟨.drive, false, 2177⟩ := by decide +kernel

/-- 4.1, wrapping write example: 20 records from slot 13 stay in page 0. -/
theorem test_wrapping_write :
    let ws := writtenSlots base.ms.waypoints 13 ((List.range 20).map (fun i => (⟨0, [], byteOf (i + 1)⟩ : WptRecord)))
    (ws.take 17).map Waypoint.label = [20, 5, 6, 7, 8, 9, 10, 11, 12, 13, 14, 15, 16, 17, 18, 19, 0] := by decide +kernel

/-- 5.4, mark example: the five computations. -/
theorem test_mark_rows :
    let r : Tuning := { base.axes.swing.active with markAngle := 4000000, markUp := true }
    [markCrossed r 3990000 3998000, markCrossed r 3998000 4000000, markCrossed r 4000000 4000000, markCrossed r 4000000 3999984,
      markCrossed r 3999984 4000160] = [false, true, false, false, true] := by decide +kernel

/-- 7.2, report polling example: computation 17 finds the third miss in a row. -/
theorem test_third_miss_raises :
    ({ DriveLink.reset with outstanding := true, missCount := 2 } : DriveLink).checkMiss 3 =
      ({ DriveLink.reset with outstanding := false, missCount := 0 }, true) := by decide

/-- 5.3, trigger example: the press at 0.0, the bounce at 0.3, the expiry at 252.0 with the line HIGH. -/
def trigState (line accepted holdOff : Bool) : State :=
  withMs (fun m =>
    { m with
      cueSources := [.none, .none, .trigger .trig0, .none, .none, .none, .none, .none], trig0 := ⟨line, accepted, holdOff, 0⟩ })
theorem test_trigger_press :
    let t := after (.triggerLineChange (.trig .trig0) true) (trigState false false false)
    (t.ms.trig0, t.ms.cues) = (⟨true, true, true, 0⟩, 4) := by decide +kernel
theorem test_trigger_bounce_ignored :
    let t := after (.triggerLineChange (.trig .trig0) false) (trigState true true true)
    (t.ms.trig0, t.ms.cues) = (⟨false, true, true, 0⟩, 0) := by decide +kernel
theorem test_trigger_edge_at_expiry :
    let t := after (.holdOffExpiry .trig0) (trigState true false true)
    (t.ms.trig0, t.ms.cues) = (⟨true, true, true, 0⟩, 4) := by decide +kernel

/-- 6.9, worked case: the evaluation of the residuals 68,812,800 … 61,440,000 with Q 40,000,000. -/
def swept : State :=
  { inMode .tilt .hold with
    sw :=
      { base.sw with
        running := true, axis := .tilt, dlo := 0, dhi := 15, wn := 8192, q := 40000000, savedD := 3, currentD := 15, count := 8191
        sum := 61440000
        results :=
          [68812800, 63488000, 57344000, 50790400, 44236800, 39321600, 35225600, 32768000, 33587200, 40960000, 36044800, 39731200,
           43417600, 48332800, 54476800, 0] ++ List.replicate 48 0 } }
theorem test_sweep_evaluation :
    let t := swept.countSweep 0
    (t.sw.last.outcome, t.sw.last.d, t.sw.last.first, t.sw.last.last, t.sw.running) = (.doneGapped, 8, some 5, some 11, false) ∧
      ((t.axis .tilt).active.d, (t.axis .tilt).staged.d) = (8, 8) := by decide +kernel

/-! ### One step per command -/

theorem test_power_on_reset :
    let t := after (.powerOnReset ⟨true, true, false, false⟩) { swept with killAsserted := true }
    (t.cl.resetCause, t.cl.resetSeen, t.ms.trig0, t.sw.running, t.protHigh) = (.power, true, ⟨true, true, false, 0⟩, false, false) := by
  decide +kernel
theorem test_pin_reset_keeps_store :
    let t := after (.pinReset ⟨true, false, false, true⟩) (withPs (fun p => { p with protectCount := 3, latch := true, freeze := true }))
    (t.cl.resetCause, t.ps.protectCount, t.ps.latch, t.ps.freeze) = (.pin, 3, false, true) := by decide +kernel
theorem test_encoder_record :
    let p := (after (.encoderRecord .lift (encSample 0x12 0x34 0x50)) base).si.enc.lift
    (p.position, p.newPos, p.fresh, p.accepted) = (0x12345, true, true, 1) := by decide +kernel
theorem test_encoder_error_bit : (after (.encoderRecord .lift (encSample 0x12 0x34 0x58)) base).si.enc.lift.rejected = 1 := by
  decide +kernel
theorem test_partial_discard_counts :
    let s := base.setSen .head { base.si.sen.head with held := [0xB0] }
    let p := (after (.partialRecordDiscard (.sen .head)) s).si.sen.head
    (p.held, p.rejected) = ([], 1) := by decide +kernel
/-- BASE at `n` units of its staleness timer; its limit of 8 lf is 125,000 units. -/
def baseAt (n : Nat) : State := base.setSen .base { base.si.sen.base with elapsed := n }
theorem test_staleness_expiry_at_the_limit :
    ((after (.stalenessExpiry (.sen .base)) (baseAt 125000)).si.sen.base.fresh,
      (after (.stalenessExpiry (.sen .base)) (baseAt 124999)).si.sen.base.fresh) = (false, true) := by decide +kernel
/-- R6: an acceptance taken before the expiry that falls together with it restarts the timer, and no expiry occurs. -/
theorem test_acceptance_before_expiry :
    (after (.stalenessExpiry (.sen .base)) (after (.inertialSampleRecord .base (sample 9 0)) (baseAt 125000))).si.sen.base.fresh = true := by
  decide +kernel
/-- While no command waits, a limit that is reached brings its expiry, and below it one unit of time passes. -/
theorem test_idle_takes_what_is_due :
    let idle (s : State) : Option InertialPort := match step s with | .next t => some t.si.sen.base | _ => none
    (idle (baseAt 125000)).map (fun p => (p.fresh, p.elapsed)) = some (false, 0) ∧
      (idle (baseAt 124999)).map (fun p => (p.fresh, p.elapsed)) = some (true, 125000) := by decide +kernel
theorem test_loop_frame_counts : (after .loopFrame base).le.frameNo = 1 := by decide +kernel
theorem test_loop_frame_drives_freewheel :
    ((after .loopFrame base).dl.get .pan).lastWord = some ⟨.freewheel, false, 2048⟩ ∧
      ((after .loopFrame base).dl.get .swing).lastWord = none := by decide +kernel
theorem test_drive_word_sent :
    let s := base.setLink .tilt { DriveLink.reset with sending := some ⟨.brake, false, 2048⟩, waiting := some ⟨.drive, true, 2177⟩ }
    let l := (after (.driveWordSent .tilt) s).dl.get .tilt
    (l.sending, l.waiting, l.outstanding) = (some ⟨.drive, true, 2177⟩, none, true) := by decide +kernel
theorem test_driver_fault_report :
    let s := base.setLink .tilt { DriveLink.reset with outstanding := true, missCount := 2 }
    let t := after (.driverReport .tilt (drvSample 1)) s
    (t.alc.cause2, (t.dl.get .tilt).missCount, (t.dl.get .tilt).lastReport) =
      (some ⟨.driveFault .tilt, .two, 8, 1, 0⟩, 0, some ⟨300, 25, 1, 0⟩) := by decide +kernel
theorem test_kill_halts_and_brakes :
    let t := after .killAssertion (inMode .pan .hold)
    ((t.axis .pan).mode, (t.axis .pan).killPhase, (t.dl.get .pan).lastWord, t.ms.holdKill) =
      (.stopped, .halted, some ⟨.brake, false, 2048⟩, true) := by decide +kernel
theorem test_kill_release_keeps_phase :
    let t := after .killRelease (after .killAssertion (inMode .pan .hold))
    (t.killAsserted, t.ms.holdKill, (t.axis .pan).killPhase) = (false, false, .halted) := by decide +kernel
theorem test_good_frame_ident : (said (.goodFrame 0x01 9 [0]) base).map Frame.kind = some 0x81 := by decide +kernel
theorem test_length_error : (after (.lengthError 4 1) base).cl.counters.lengthErrors = 1 := by decide +kernel
theorem test_crc_error : (after (.crcError 3 7 [] 0 0) base).cl.counters.crcErrors = 1 := by decide +kernel
theorem test_gap : (after (.gap [0xC5, 0, 1]) base).cl.counters.gaps = 1 := by decide +kernel
theorem test_console_frame_sent :
    let s := withCl (fun c => { c with txQueue := [⟨1, 0, []⟩, ⟨2, 0, []⟩], dispatcher := .replyWaiting ⟨3, 0, []⟩ })
    (after .consoleFrameSent s).cl.txQueue = [⟨2, 0, []⟩, ⟨3, 0, []⟩] := by decide +kernel
theorem test_silence_expiry :
    let s : State := { withAxis .pan (fun a => { a with mode := .rate, rdTarget := 200 }) with cl := { base.cl with silence := .running, silenceElapsed := 3200000 } }
    let t := after .silenceExpiry s
    ((t.axis .pan).rdTarget, t.cl.silence, t.alc.cause1.map Cause.source) = (0, .expired, some .linkSilent) := by decide +kernel
theorem test_unknown_kind : said (.unknownKind 0x07 5 [1, 2]) base = some ⟨0x87, 5, [0x10]⟩ := by decide +kernel
theorem test_ident_reply :
    said (.ident 5 1) base =
      some ⟨0x81, 5, [0, 0x41, 0x05, 0x40, 0x01, 1, 1, 0, 0, 0, 0, 0, 0, 1, 0, 0, 0, 0, 0, 0, 0, 0, 0, 0]⟩ ∧
      (after (.ident 5 1) base).cl.resetSeen = false := by decide +kernel
theorem test_restart_replies_then_resets :
    let s := after (.restart 6) base
    s.cl.txQueue = [⟨0x82, 6, [0]⟩] ∧ (after .consoleFrameSent s).cl.resetCause = .restart := by decide +kernel
theorem test_halt : said (.halt 1) base = some ⟨0x83, 1, [0]⟩ ∧ (after (.halt 1) base).le.frameTimer = false := by decide +kernel
theorem test_run_restarts_timer :
    let t := after (.run 1) (after (.halt 1) base)
    (t.le.halted, t.le.frameTimer) = (false, true) := by decide +kernel
theorem test_step_refused_running : said (.step 2) base = some ⟨0x85, 2, [0x13]⟩ := by decide +kernel
theorem test_step_halted : (after (.step 2) (after (.halt 1) base)).le.frameNo = 1 := by decide +kernel

/-- A SETUP with no field present: it changes nothing and reads the record. -/
def noFields : SetupFields := ⟨none, none, none, none, none, none, none, false, none, none, none, none, none, none, none, none⟩
theorem test_setup_reads :
    said (.setup 1 noFields) base = some ⟨0x86, 1, [0, 0, 100, 8, 8, 8, 0, 80, 3, 1] ++ List.replicate 16 0⟩ := by decide +kernel
theorem test_setup_clamps_silence :
    (after (.setup 1 { noFields with silence := some 5 }) base).cl.setup.silenceLimit = 20 := by decide +kernel
theorem test_state_length : (said (.state 1 0x05) base).map (fun f => f.payload.length) = some 169 := by decide +kernel
theorem test_mode_off_to_hold_refused : said (.mode 1 0x04 2 0) base = some ⟨0x89, 1, [0x13]⟩ := by decide +kernel

/-- 2.13: entry into FOLLOW captures T = W and O = W - F. -/
theorem test_mode_follow_captures :
    let s := withAxis .pan (fun a => { a with mode := .stopped, w := 2500000, f := 999000 })
    let a := (after (.mode 1 0x04 4 0) s).axis .pan
    (a.mode, a.t, a.o, a.i) = (.follow, 2500000, 1501000, 0) := by decide +kernel
theorem test_demand_clamps :
    let t := after (.demand 1 0x05 [100, 5000]) (inMode .pan .rate)
    ((t.axis .pan).rdTarget, (t.axis .swing).rdTarget, t.cl.txQueue.map Frame.payload) = (4096, 0, [[0, 4]]) := by decide +kernel

/-- 2.13, cross-checks in TUNE: the five rows. -/
def tuned (ps : List TunePair) : Option (List Byte) := (said (.tune 1 3 ps) base).map Frame.payload
theorem test_tune_rows :
    [tuned [⟨7, 400⟩], tuned [⟨7, 400⟩, ⟨8, 300⟩], tuned [⟨7, 350⟩, ⟨8, 300⟩], tuned [⟨14, 0⟩, ⟨13, 0⟩],
      tuned [⟨19, 128⟩, ⟨17, 8⟩]] = [some [0x12], some [0], some [0x12], some [0x12], some [0x12]] := by decide +kernel
theorem test_tune_read_length : (said (.tuneRead 1 3 1) base).map (fun f => f.payload.length) = some 122 := by decide +kernel
theorem test_apply : ((after (.apply 1 0x04) base).axis .pan).swapPending = true := by decide +kernel
theorem test_queue_add : said (.queueAdd 1 [.dwell 7 5]) base = some ⟨0x90, 1, [0, 0, 0, 1]⟩ := by decide +kernel
theorem test_queue_run_begins_head :
    (after (.queueCtrlRun 1) (after (.queueAdd 1 [.dwell 7 5]) base)).ms.phase = .dwelling 5 := by decide +kernel
theorem test_queue_pause : (after (.queueCtrlPause 1) (withMs (fun m => { m with running := true }))).ms.running = false := by
  decide +kernel
theorem test_queue_flush :
    let s := after (.queueCtrlFlush 1) (after (.queueAdd 1 [.dwell 7 5, .cue 8 1 0]) base)
    (s.ms.queue, s.ms.phase, s.cl.txQueue.getLast?) = ([], .none, some ⟨0x91, 1, [0, 2]⟩) := by decide +kernel
theorem test_queue_read :
    said (.queueRead 1) base = some ⟨0x92, 1, [0, 0, 0, 0, 0, 0, 0, 0, 0, 0, 0, 0, 0, 0]⟩ := by decide +kernel
theorem test_wpt_write :
    ((after (.wptWrite 1 31 [⟨0x04, [77], 9⟩]) base).ms.waypoints[31]?) = some ⟨9, ⟨none, none, some 77, none, none⟩⟩ := by
  decide +kernel
theorem test_wpt_read : said (.wptRead 1 63 1) base = some ⟨0x95, 1, [0, 0, 0]⟩ := by decide +kernel
theorem test_wpt_lock : said (.wptLock 1 0x10) base = some ⟨0x96, 1, [0x12]⟩ ∧ (after (.wptLock 1 0x0F) base).ms.locks = 15 := by
  decide +kernel
theorem test_cue_set_wins : (after (.cue 1 0x03 0x01 [⟨0, 3, 1⟩]) (withMs (fun m => { m with cues := 2 }))).ms.cues = 1 := by
  decide +kernel
theorem test_sweep : said (.sweep 1 3 0 15 8192 40000000) (inMode .tilt .hold) = some ⟨0x9C, 1, [1]⟩ := by decide +kernel
theorem test_sweep_stop :
    let t := after (.sweepStop 1) swept
    (t.cl.txQueue.map Frame.payload, (t.axis .tilt).active.d) = ([[0, 0, 0, 0, 1, 3, 4, 3], [0, 3, 3]], 3) := by decide +kernel
theorem test_sweep_read : (said (.sweepRead 1) base).map (fun f => f.payload.length) = some 32 := by decide +kernel
theorem test_alert_read : (said (.alertRead 1 0) base).map (fun f => f.payload.length) = some 49 := by decide +kernel
theorem test_alert_cfg_event_condition_refused : said (.alertCfg 1 [⟨0, 1, 1, 0⟩]) base = some ⟨0xA1, 1, [0x12]⟩ := by
  decide +kernel

/-- 2.13: the level-2 alert holds the joint, the resolve recaptures at W with the rates 0. -/
def alertRow : State :=
  let s := withAxis .pan (fun a => { a with mode := .rate, rdTarget := 500, rdEff := 320, t := 2600000, i := 1100, j := 1200000 })
  after (.alertTest 1 0x04 0) (after (.alertCfg 1 [⟨0, 2, 1, 1⟩]) s)
theorem test_alert_test_level_two :
    let a := alertRow.axis .pan
    (a.mode, a.jlock, a.rdEff, a.t, a.i) = (.safe, 1200000, 320, 2600000, 1100) := by decide +kernel
theorem test_resolve_level_two :
    let t := after (.resolveLevel2 1) (alertRow.setAxis .pan { alertRow.axis .pan with w := 2610000 })
    let a := t.axis .pan
    (a.mode, a.jlock, a.rdTarget, a.rdEff, a.t, a.i) = (.rate, 1200000, 0, 0, 2610000, 0) ∧
      t.cl.txQueue.getLast? = some ⟨0xA2, 1, [0, 4]⟩ := by decide +kernel
theorem test_resolve_level_one :
    let s := after (.alertTest 1 0x04 0) base
    (s.axis .pan).damp = true ∧ ((after (.resolveLevel1 1) s).axis .pan).damp = false := by decide +kernel
theorem test_alert_cancel : said (.alertCancel 1 1) base = some ⟨0xA4, 1, [0, 0, 0, 0, 0]⟩ := by decide +kernel
theorem test_store_arm : (after (.storeArm 1) base).ps.latch = true := by decide +kernel
theorem test_store_disarm : (after (.storeDisarm 1) (after (.storeArm 1) base)).ps.latch = false := by decide +kernel
theorem test_store_save_not_armed : said (.storeSave 1 0) base = some ⟨0xA9, 1, [0x18]⟩ := by decide +kernel

/-- A save of slot 2 begun and completed. -/
def saved : State := after .saveCompletion (after (.storeSave 1 2) (after (.storeArm 1) base))
theorem test_store_save_completes :
    ((saved.slot 2).state, saved.ps.latch, saved.cl.txQueue.getLast?) = (.valid, false, some ⟨0x49, 0, [0, 0, 0, 0, 2, 2, 0, 0]⟩) := by
  decide +kernel
theorem test_store_load :
    said (.storeLoad 1 2) (withPs (fun p => { p with slots := p.slots.set 2 ⟨.valid, [(4, ⟨1, true, true⟩)]⟩ })) =
      some ⟨0xAB, 1, [0x1B, 0, 1]⟩ := by decide +kernel
theorem test_store_erase_completes :
    ((after .eraseCompletion (after (.storeErase 1 2) (after (.storeArm 1) { saved with cl := base.cl }))).slot 2).state = .empty := by
  decide +kernel
theorem test_store_protect_completes :
    let t := after .protectCompletion (after (.storeProtect 1 8 1 true) (after (.storeArm 1) base))
    (t.ps.protectCount, t.ps.freeze) = (8, true) := by decide +kernel
theorem test_store_status :
    said (.storeStatus 1 0 true) base = some ⟨0xAC, 1, [0, 0, 0, 4, 0, 0, 0, 0, 0, 0, 0, 0, 0, 0, 0, 0]⟩ := by decide +kernel
theorem test_park :
    let t := after (.park 1) base
    (t.le.park, t.le.frameTimer, (t.dl.get .pan).lastWord) = (.parked, false, some ⟨.brake, false, 2048⟩) := by decide +kernel
theorem test_parked_refuses : said (.halt 1) parkedState = some ⟨0x83, 1, [0x1A]⟩ := by decide +kernel
theorem test_unpark : said (.unpark 1) parkedState = some ⟨0xB1, 1, [1]⟩ := by decide +kernel
theorem test_unpark_settling_end :
    let t := after .unparkSettlingEnd (after (.unpark 1) parkedState)
    (t.le.park, t.cl.txQueue.getLast?) = (.running, some ⟨0x49, 0, [0, 0, 0, 0, 5, 0, 0, 0]⟩) := by decide +kernel
theorem test_report_plan : said (.reportPlan 1 7 5) base = some ⟨0xB4, 1, [0, 7, 0, 8]⟩ := by decide +kernel

/-! ### Orders within one event -/

/-- R95: a WAIT that consumes ANY of cues 0 and 1 is met by the mark's own change; the level-2 alert of the same computation then sets
cue 1, which stays. -/
theorem test_mark_is_tested_before_alert :
    let s := withMs (fun m =>
      { m with
        cueSources := [.mark .pan, .alert .two, .none, .none, .none, .none, .none, .none], running := true
        queue := [⟨0, 0, .wait 3 true true none⟩], phase := .waitingCue none, nextSerial := 1 })
    let t := s.handOver .pan ⟨[], true, true, none⟩
    (t.ms.queue, t.ms.cues, t.ms.doneList.length, t.alc.inService2) = ([], 2, 1, true) := by decide +kernel

/-- R76, R95: a WAIT on ANY of cues 0 and 1 at the head, with a DWELL behind it; MARK(PAN) sets cue 0, a level-1 taking cue 1. -/
def waitThenDwell : State :=
  withMs (fun m =>
    { m with
      cueSources := [.mark .pan, .alert .one, .none, .none, .none, .none, .none, .none], running := true
      queue := [⟨0, 0, .wait 3 true true none⟩, ⟨1, 0, .dwell 7⟩], phase := .waitingCue none, nextSerial := 2 })

/-- The mark retires the WAIT, and the DWELL begins before the level-2 alert of the same computation holds the queue. -/
theorem test_entry_behind_marked_wait_begins :
    let t := waitThenDwell.handOver .pan ⟨[], true, true, none⟩
    (t.ms.phase, t.ms.doneList.length, t.alc.inService2, t.ms.holdAlert) = (.dwelling 7, 1, true, true) := by decide +kernel

/-- The same for an ALERT(1) taking that a level-2 one follows: LINK_SILENT first, then DRIVE_FAULT. -/
theorem test_entry_behind_alerted_wait_begins :
    let s : State :=
      { waitThenDwell with
        cl := { base.cl with silence := .expired }
        alc := { base.alc with sources := base.alc.sources.set .linkSilent { base.source .linkSilent with truth := true } } }
    let t := s.settle [.condition .linkSilent, .raised (.driveFault .pan) 2]
    (t.ms.phase, t.ms.doneList.length, t.alc.inService1, t.alc.inService2) = (.dwelling 7, 1, true, true) := by decide +kernel

/-- R76, R150: a MODE entry of a run that brings a level-2 alert about is followed by no entry: progress is not allowed any more. -/
theorem test_own_alert_stops_the_run :
    let s := (withAxis .pan (fun a => { a with mode := .stopped })).setEnc .pan { base.si.enc.pan with fresh := false }
    let s : State :=
      { s with ms := { s.ms with queue := [⟨0, 0, .mode 4 .hold⟩, ⟨1, 0, .dwell 7⟩], phase := .pending, nextSerial := 2 } }
    let t := after (.queueCtrlRun 1) s
    (t.ms.phase, t.ms.doneList.length, t.alc.inService2) = (.pending, 1, true) := by decide +kernel

/-- R66: a swap that brings satLimit below satCount makes SATURATED true at the swap; LATCHED, it stays pending although step 5
writes satCount 0. -/
theorem test_swap_judges_saturation :
    let s := (withAxis .pan (fun a =>
      { a with mode := .hold, satCount := 5, swapPending := true, staged := { a.staged with satLimit := 3 } })).setSource
        (.saturated .pan) ⟨.one, false, true, false, false, 0⟩
    let t := s.compute .pan 1
    ((t.axis .pan).satCount, (t.source (.saturated .pan)).pending, (t.source (.saturated .pan)).truth) = (0, true, false) := by
  decide +kernel

/-- R144: one MODE makes FEEDBACK_STALE and BASE_STALE of PAN true; the first is taken at level 2 and its SAFE ends the truth of the
second, which, LATCHED, still becomes pending. -/
theorem test_latched_rise_outlives_its_truth :
    let s := withAxis .pan (fun a => { a with mode := .stopped, active := { a.active with kf := 1 } })
    let s : State := { s with schedule := [1], si := { s.si with sen := State.reset.si.sen } }
    let s := s.setSource .baseStale { s.source .baseStale with latched := true }
    let t := after (.mode 1 0x04 2 0) s
    (t.alc.cause2.map Cause.source, (t.source .baseStale).truth, (t.source .baseStale).pending) =
      (some (.feedbackStale .pan), false, true) := by decide +kernel

/-- R187: a STORE_PROTECT that waited in the buffer is judged on PROT_N as it stands when it is served. -/
theorem test_protect_reads_pin_when_served :
    let s : State :=
      { base with
        cl :=
          { base.cl with
            txQueue := [⟨0x41, 0, []⟩], dispatcher := .replyWaiting ⟨0x92, 0, [0]⟩, requests := [⟨0x2D, 1, [8, 1]⟩] }
        ps := { base.ps with latch := true, freeze := true }
        protHigh := true }
    (said .consoleFrameSent (after (.triggerLineChange .protN false) s),
      said .consoleFrameSent (after (.triggerLineChange .protN true) { s with protHigh := false })) =
      (some ⟨0xAD, 1, [0x17]⟩, some ⟨0xAD, 1, [0x01]⟩) := by decide +kernel

/-! ### A state and operands that meet the hypotheses of each statement, clause by clause -/

/-- `base` with the halted flag set. -/
def halted : State := { base with le := { base.le with halted := true, frameTimer := false } }

/-- `base` with every axis due each fourth frame, so that none is due at frame 1. -/
def noneDue : State := { base with axes := base.axes.mapAxis (fun _ a => { a with active := { a.active with n := 4 } }) }

/-- `noneDue` with one entry at the head of a RUNNING queue, in a phase. -/
def headAt (b : EntryBody) (p : HeadPhase) : State :=
  { noneDue with ms := { noneDue.ms with queue := [⟨0, 0, b⟩], phase := p, running := true, nextSerial := 1 } }

/-- `base` unparking. -/
def unparking : State := { base with le := { base.le with park := .unparking } }

/-- A segment of axis PAN at step `k` of 100. -/
def seg (k : Nat) (e : EndMode) : Segment := ⟨7, 100, 200, 100, k, .eased, e⟩

/-- PAN in MOVE with a segment. -/
def moving (k : Nat) (e : EndMode) : AxisRec := { base.axes.pan with mode := .move, segment := some (seg k e) }

/-- LIFT in a mode with its gyro-carried W away from the gravity reference of TIP by `d`. -/
def level (m : Mode) (d : Int) (accel : Half) : State :=
  (withAxis .lift (fun a => { a with mode := m, w := BitVec.ofInt 32 (-d) })).setSen .tip
    { base.si.sen.tip with slot := { base.si.sen.tip.slot with accel := accel } }

theorem test_witness_StepRunsFrontCommand :
    ({ base with pending := [.loopFrame, .killRelease] } : State).pending = .loopFrame :: [.killRelease] := rfl
/-- Nothing due; BASE alone due; BASE and the silence timer due together; each other timer at its limit. -/
theorem test_witness_EmptyQueueLetsTimePass :
    let timers (f : LoopEngine → LoopEngine) : State := { base with le := f base.le }
    let both : State := { baseAt 125000 with cl := { base.cl with silence := .running, silenceElapsed := 3200000 } }
    (base.pending = [] ∧ dueExpiries base = []) ∧
      ((baseAt 125000).pending = [] ∧ (baseAt 125000).si.sen.base.fresh = true ∧
        15625 * (baseAt 125000).cl.setup.staleLimit.base ≤ (baseAt 125000).si.sen.base.elapsed ∧
        (dueExpiries (baseAt 125000)).length = 1) ∧
      (both.pending = [] ∧ (dueExpiries both).length = 2) ∧
      [dueExpiries (timers (fun l => { l with frameElapsed := 15625 })),
          dueExpiries (timers (fun l => { l with park := .unparking, settleElapsed := 1600000 })),
          dueExpiries (withMs (fun m => { m with trig1 := ⟨true, true, true, 64000⟩ })),
          dueExpiries (withPs (fun p => { p with busy := .saving 1 [], busyElapsed := 1440000 })),
          dueExpiries (withPs (fun p => { p with busy := .erasing 1, busyElapsed := 2560000 })),
          dueExpiries (withPs (fun p => { p with busy := .protecting 1 true, busyElapsed := 640000 })),
          dueExpiries (withPs (fun p => { p with busy := .protecting 1 true, busyElapsed := 639999 }))] =
        [[.loopFrame], [.unparkSettlingEnd], [.holdOffExpiry .trig1], [.saveCompletion], [.eraseCompletion], [.protectCompletion], []] := by
  decide +kernel
theorem test_witness_CommandsLeaveQueueAlone : exec .killRelease base = .next base := rfl
theorem test_witness_ResetLeavesBlocksAtTheirValues : (⟨true, true, false, true⟩ : Pins).killN = true := rfl
theorem test_witness_ResetValuesAreThoseListed :
    let pins : Pins := ⟨true, false, false, false⟩
    let r : Frame := ⟨0x82, 5, [0]⟩
    let s : State := withCl (fun c => { c with txQueue := [r], dispatcher := .restarting none })
    (pins.killN = true ∧ exec (.powerOnReset pins) base = .next (after (.powerOnReset pins) base) ∧
        exec (.pinReset pins) base = .next (after (.pinReset pins) base)) ∧
      (pins.trig0 = s.ms.trig0.line ∧ pins.trig1 = s.ms.trig1.line ∧ s.killAsserted = false ∧ s.cl.dispatcher = .restarting none ∧
        s.cl.txQueue = r :: [] ∧
        exec .consoleFrameSent s = .next (after .consoleFrameSent s)) :=
  ⟨⟨rfl, rfl, rfl⟩, rfl, rfl, rfl, rfl, rfl, rfl⟩
theorem test_witness_ResetTakesLowKillLine :
    let pins : Pins := ⟨false, false, false, true⟩
    let r : Frame := ⟨0x82, 5, [0]⟩
    let s : State := { withCl (fun c => { c with txQueue := [r], dispatcher := .restarting none }) with killAsserted := true }
    pins.killN = false ∧ s.killAsserted = true ∧ pins.trig0 = s.ms.trig0.line ∧ pins.trig1 = s.ms.trig1.line ∧
      pins.protN = s.protHigh ∧ s.cl.dispatcher = .restarting none ∧ s.cl.txQueue = ⟨0x82, 5, [0]⟩ :: [] :=
  ⟨rfl, rfl, rfl, rfl, rfl, rfl, rfl⟩

/-- Whole records, the last byte of one, a duplicate, a record with its fault bit set. -/
theorem test_witness_InertialRecordIsJudged :
    base.le.park ≠ .parked ∧ sample 7 0 ≠ [] ∧ ((base.si.sen.get .tip).held ++ sample 7 0).length = 20 ∧
      ((base.setSen .tip { base.si.sen.tip with held := (sample 7 0).take 19 }).si.sen.tip.held ++ (sample 7 0).drop 19).length = 20 ∧
      (crc8 ((sample 7 0).take 19) = byteAt (sample 7 0) 19 ∧ byteAt (sample 7 0) 0 = 0xB0 ∧
        (byteAt (sample 7 0) 18).getLsbD 0 = false) ∧
      base.si.sen.tip.seqRef ≠ some (byteAt (sample 7 0) 1) ∧
      ((tipAt 7).si.sen.tip.seqRef = some (byteAt (sample 7 0) 1) ∧ AtRest (tipAt 7)) ∧
      (¬(crc8 ((sample 7 1).take 19) = byteAt (sample 7 1) 19 ∧ byteAt (sample 7 1) 0 = 0xB0 ∧
        (byteAt (sample 7 1) 18).getLsbD 0 = false) ∧ AtRest base) := by decide +kernel

theorem test_witness_EncoderRecordIsJudged :
    base.le.park ≠ .parked ∧ encSample 255 255 0xF0 ≠ [] ∧ ((base.si.enc.get .roll).held ++ encSample 255 255 0xF0).length = 4 ∧
      (crc8 ((encSample 255 255 0xF0).take 3) = byteAt (encSample 255 255 0xF0) 3 ∧
        (byteAt (encSample 255 255 0xF0) 2).toNat % 16 = 0) ∧
      (¬(crc8 ((encSample 0 0 1).take 3) = byteAt (encSample 0 0 1) 3 ∧ (byteAt (encSample 0 0 1) 2).toNat % 16 = 0) ∧
        AtRest base) := by decide +kernel

theorem test_witness_PartialRecordsAreHeldAndDiscarded :
    (base.le.park ≠ .parked ∧ ((base.si.sen.get .base).held ++ (sample 7 0).take 19).length < 20) ∧
      (base.le.park ≠ .parked ∧ ((base.si.enc.get .pan).held ++ [1, 2, 3]).length < 4) ∧
      ((base.dl.get .pan).held ++ [1, 2, 3, 4]).length < 5 ∧ parkedState.le.park = .parked := by decide +kernel

/-- Limits reached and not; each source's condition and axes somewhere; from rest, BASE's and an encoder's expiry with something to
take. -/
theorem test_witness_StalenessExpiryMakesStale :
    let active (s : State) (k : Axis) : Prop := (s.axis k).mode ∈ [Mode.hold, .rate, .follow, .move]
    let forward : State := (baseAt 125000).setAxis .pan { base.axis .pan with mode := .hold, active := { (base.axis .pan).active with kf := 1 } }
    let turning : State := (inMode .pan .hold).setEnc .pan { base.si.enc.pan with elapsed := 125000 }
    let coasting : State := withAxis .roll (fun a => { a with mode := .rate, coastCount := 65535 })
    (AtRest forward ∧ forward.alc.inService2 = false ∧ forward.alc.inService1 = false ∧ progress forward = false ∧ active forward .pan ∧
        (forward.axis .pan).active.kf ≠ 0 ∧ forward.si.sen.base.fresh = true ∧
        15625 * forward.cl.setup.staleLimit.base ≤ forward.si.sen.base.elapsed ∧ (forward.source .baseStale).enable = true ∧
        (forward.source .baseStale).level = .one) ∧
      (AtRest turning ∧ turning.alc.inService2 = false ∧ active turning .pan ∧ (turning.si.enc.get .pan).fresh = true ∧
        15625 * turning.cl.setup.staleLimit.head ≤ (turning.si.enc.get .pan).elapsed ∧ (turning.si.sen.get .head).fresh = true ∧
        (turning.source (.feedbackStale .pan)).enable = true ∧ (turning.source (.feedbackStale .pan)).level = .two ∧
        sweeping turning .pan = false) ∧
      (active coasting .roll ∧ (coasting.axis .roll).active.coastLimit ≤ (coasting.axis .roll).coastCount.toNat ∧
        conditionTruth coasting .horizonCoast = true) ∧
      ((State.reset.si.sen.get .tip).fresh = false ∧ (State.reset.si.enc.get .lift).fresh = false ∧
        (base.si.sen.get .tip).fresh = true ∧ (base.si.enc.get .lift).fresh = true) := by
  decide +kernel

/-- A running and a stopped timer; a report frame that drops nothing, with one drop left to count. -/
theorem test_witness_LoopFrameAdvances :
    let s : State :=
      { base with
        cl := { base.cl with planSet := 7, planInterval := 8, counters := { base.cl.counters with unaskedDrops := 65534 } }
        le := { base.le with frameNo := 7 } }
    (base.le.frameTimer = true ∧ halted.le.frameTimer = false) ∧
      (s.le.frameTimer = true ∧ s.cl.planInterval ≠ 0 ∧ (s.le.frameNo + 1).toNat % s.cl.planInterval = 0 ∧
        s.cl.counters.unaskedDrops.toNat < 65535 ∧
        (after .loopFrame s).cl.counters.unaskedDrops = s.cl.counters.unaskedDrops) := by decide +kernel

/-- No report for each of the three causes; the head's count at 2, at 1 with the entry alone and with one behind it; a report frame
without a count; a frame with PAN due, in a PAUSED queue and with an empty one. -/
theorem test_witness_LoopFrameWithNoAxisDue :
    let ready (s : State) : Prop := AtRest s ∧ s.le.frameTimer = true
    let counts (s : State) : Prop := ready s ∧ s.cl.planInterval = 0 ∧ progress s = true
    let plan (set : BitVec 3) (n : Nat) (frame : Word) : State :=
      { noneDue with cl := { noneDue.cl with planSet := set, planInterval := n }, le := { noneDue.le with frameNo := frame } }
    let behind (s : State) : State := { s with ms := { s.ms with queue := s.ms.queue ++ [⟨1, 0, .dwell 4⟩] } }
    let wait : EntryBody := .wait 1 true true (some 9)
    (∀ k, (noneDue.le.frameNo + 1).toNat % (noneDue.axis k).active.n ≠ 0) ∧
      (ready noneDue ∧ noneDue.cl.planInterval = 0 ∧ noneDue.ms.phase = .none ∧ progress noneDue = false) ∧
      (ready (plan 0 1 0) ∧ (plan 0 1 0).cl.planSet = 0) ∧
      (ready (plan 7 8 0) ∧ ((plan 7 8 0).le.frameNo + 1).toNat % (plan 7 8 0).cl.planInterval ≠ 0) ∧
      (counts (headAt (.dwell 9) (.dwelling 2)) ∧ counts (headAt wait (.waitingCue (some 2)))) ∧
      (counts (headAt (.dwell 9) (.dwelling 1)) ∧ counts (behind (headAt (.dwell 9) (.dwelling 1)))) ∧
      (counts (headAt wait (.waitingCue (some 1))) ∧ counts (behind (headAt wait (.waitingCue (some 1))))) ∧
      (ready (plan 7 1 0) ∧ (plan 7 1 0).cl.planInterval ≠ 0 ∧ (plan 7 1 0).cl.planSet ≠ 0 ∧
        ((plan 7 1 0).le.frameNo + 1).toNat % (plan 7 1 0).cl.planInterval = 0 ∧ (plan 7 1 0).ms.phase = .none) ∧
      (ready base ∧ progress base = false ∧ base.cl.planInterval = 0 ∧ (base.le.frameNo + 1).toNat % (base.axis .pan).active.n = 0) ∧
      (let s := withMs (fun m => { m with running := true })
       ready s ∧ progress s = true ∧ s.ms.queue = [] ∧ s.ms.phase = .none) := by
  constructor
  · intro k
    cases k <;> decide +kernel
  · and_intros <;> decide +kernel

/-- PAN about to cross a mark upwards: J 0, the new position one count on. -/
def aboutToCross : State :=
  (withAxis .pan (fun a =>
    { a with lastEncoder := some 0, active := { a.active with markUp := true, markAngle := 16 } })).setEnc .pan
      { base.si.enc.pan with position := 1, newPos := true }
theorem test_witness_ComputationHandsItsModesWord :
    let free (s : State) : Bool :=
      let a := s.axis .pan
      decide
        ((a.killPhase = .clear ∨ s.killAsserted = true ∧ (a.killPhase = .halted ∨ a.killPhase = .paused ∧ isHoldable a.mode = false)) ∧
          a.launch = none ∧ ¬(a.swapPending = true ∧ a.mode ≠ .move ∧ sweeping s .pan = false))
    let killed (m : Mode) (p : KillPhase) : State :=
      { withAxis .pan (fun a => { a with mode := m, killPhase := p }) with killAsserted := true }
    (free base ∧ (base.axis .pan).mode = .off ∧ (base.axis .pan).lastEncoder = none) ∧
      (free (inMode .pan .stopped) ∧ ((inMode .pan .stopped).axis .pan).mode = .stopped) ∧
      (let s := (inMode .pan .safe).setEnc .pan { base.si.enc.pan with fresh := false }
       free s ∧ (s.axis .pan).mode = .safe ∧ (s.si.enc.get .pan).fresh = false) ∧
      (free (inMode .pan .rate) ∧ isActive ((inMode .pan .rate).axis .pan).mode = true) ∧
      (free (inMode .pan .safe) ∧ ((inMode .pan .safe).axis .pan).mode = .safe ∧
        ((inMode .pan .safe).si.enc.get .pan).fresh = true) ∧
      (let s := aboutToCross
       free s ∧ (s.axis .pan).lastEncoder ≠ none ∧ (s.axis .pan).active.markUp = true ∧
        (s.axis .pan).j.toInt < (s.axis .pan).active.markAngle ∧
        (s.axis .pan).active.markAngle ≤ ((s.jointStep .pan).axis .pan).j.toInt) ∧
      (free (inMode .pan .hold) ∧ sweeping (inMode .pan .hold) .pan = false) ∧
      (free (killed .hold .halted) ∧ free (killed .stopped .paused)) ∧
      (let s := base.setAxis .pan (moving 99 .hold)
       free s ∧ isActive (s.axis .pan).mode = true ∧ (s.computeAxis .pan 1).2.ended = some 7 ∧
        (s.computeAxis .pan 1).2.marked = false) := by
  simp only []; decide +kernel

theorem test_witness_ReportRequestsAndMisses :
    let l := DriveLink.reset
    let out : DriveLink := { l with outstanding := true, missCount := 1 }
    (1 ≤ 1 ∧ l.requestCount = 0 ∧ 0 + 1 < 2) ∧ l.outstanding = false ∧ (out.outstanding = true ∧ out.missCount + 1 < 3) ∧
      (out.outstanding = true ∧ 2 ≤ out.missCount + 1) := by decide

/-- Held; each kill phase with the line asserted and released, a PAUSED axis that resumes; AWAITING with either effect; no launch, and a
launch in each mode. -/
theorem test_witness_HeldComputationBrakes :
    let s : State := { withAxis .pan (fun a => { a with mode := .hold, killPhase := .paused }) with killAsserted := true }
    let phase (p : KillPhase) (e : KillEffect) : AxisRec :=
      let a := base.axis .pan
      { a with mode := .rate, killPhase := p, active := { a.active with killEffect := e } }
    let killed (p : KillPhase) (e : KillEffect) (b : Bool) : State := { base.setAxis .pan (phase p e) with killAsserted := b }
    let launched (m : Mode) : State := base.setAxis .pan { moving 99 .hold with mode := m, launch := some ⟨7, 0, 0, 100, 0, .linear, .hold⟩ }
    (s.killAsserted = true ∧ (s.axis .pan).killPhase = .paused ∧ isHoldable (s.axis .pan).mode = true ∧
        ¬((s.axis .pan).swapPending = true ∧ sweeping s .pan = false) ∧ (s.axis .pan).launch = none) ∧
      ((base.axis .pan).killPhase = .clear ∧ (base.axis .pan).launch = none) ∧
      (((killed .halted .halt true).axis .pan).killPhase ≠ .awaiting ∧ (killed .halted .halt true).killAsserted = true) ∧
      (((killed .halted .halt false).axis .pan).killPhase = .halted ∧ (killed .halted .halt false).killAsserted = false) ∧
      (((killed .paused .pause false).axis .pan).killPhase = .paused ∧ ((killed .paused .pause false).axis .pan).mode = .rate) ∧
      (((killed .awaiting .halt true).axis .pan).killPhase = .awaiting ∧
        ((killed .awaiting .halt true).axis .pan).active.killEffect = .halt) ∧
      (((killed .awaiting .pause false).axis .pan).killPhase = .awaiting ∧
        ((killed .awaiting .pause false).axis .pan).active.killEffect = .pause) ∧
      ∀ m ∈ [Mode.off, .stopped, .hold, .rate, .follow, .move, .safe],
        ((launched m).axis .pan).mode = m ∧ ((launched m).axis .pan).launch.isSome = true := by decide +kernel

/-- A NEXT HALT axis whose line is released before its computation passes through the effect and the clearing, and hands BRAKE; a launch
on an axis in RATE takes it into MOVE, which then sends DRIVE (R132, R31). -/
theorem test_kill_and_launch_at_computation :
    let halted := (withAxis .pan (fun a => { a with mode := .hold, killPhase := .awaiting })).computeAxis .pan 1
    let launched :=
      (withAxis .pan (fun a => { a with mode := .rate, launch := some ⟨7, 0, 0, 100, 0, .linear, .hold⟩ })).computeAxis .pan 1
    ((halted.1.axis .pan).mode = .stopped ∧ (halted.1.axis .pan).killPhase = .clear ∧
        ((halted.1.dl.get .pan).lastWord.map DriveWord.command) = some .brake) ∧
      (launched.1.axis .pan).mode = .move ∧ (launched.1.axis .pan).launch = none ∧
        ((launched.1.dl.get .pan).lastWord.map DriveWord.command) = some .drive := by decide +kernel

theorem test_witness_SwapTakesStagedRecord :
    let s := withAxis .pan (fun a => { a with swapPending := true, i := 900, staged := { a.staged with imax := 5 } })
    let q := base.setSource .test { base.source .test with enable := false }
    ((s.axis .pan).staged.ok = true ∧
        ((s.axis .pan).killPhase = .clear ∨ s.killAsserted = true ∧ (s.axis .pan).killPhase ≠ .awaiting) ∧
        (s.axis .pan).launch = none) ∧
      ((s.axis .pan).swapPending = true ∧ (s.axis .pan).mode ≠ .move ∧ sweeping s .pan = false) ∧
      ((base.axis .pan).staged.ok = true ∧
        ¬((base.axis .pan).swapPending = true ∧ (base.axis .pan).mode ≠ .move ∧ sweeping base .pan = false)) ∧
      (AtRest q ∧ (q.source .test).latched = true ∧ (q.source .test).enable = false ∧ (q.axis .pan).staged.ok = true) := by
  decide +kernel

theorem test_witness_JointStepUnwrapsOrSeeds :
    let at' (p : BitVec 20) (l : Option (BitVec 20)) : State :=
      (withAxis .pan (fun a => { a with lastEncoder := l })).setEnc .pan { base.si.enc.pan with position := p, newPos := true }
    (base.si.enc.get .pan).newPos = false ∧
      (((at' 524288 (some 0)).si.enc.get .pan).newPos = true ∧ ((at' 524288 (some 0)).axis .pan).lastEncoder = some 0) ∧
      (((at' 524287 none).si.enc.get .pan).newPos = true ∧ ((at' 524287 none).axis .pan).lastEncoder = none) ∧
      (((at' 524288 none).si.enc.get .pan).newPos = true ∧ ((at' 524288 none).axis .pan).lastEncoder = none) := by
  decide +kernel

/-- Gravity valid and taken whole; pulled at the cap and below it; the same invalid, for an active and for another mode; stale. -/
theorem test_witness_LevelAxisEstimation :
    let premise (s : State) : Prop := (s.si.enc.get .lift).newPos = false ∧ (s.axis .lift).active.ok = true
    let pull (s : State) : Nat := (wrapDiff (gravityRef .lift s.si.sen.tip.slot) (s.axis .lift).w).natAbs
    isHeading .lift = false ∧
      (premise (level .off 5 920) ∧ 1000 ≤ 920 + (level .off 5 920).cl.setup.gravBand ∧ 920 = (level .off 5 920).si.sen.tip.slot.accel.toNat ∧
        gravityValid (level .off 5 920) .tip = true) ∧
      (premise (level .hold 65536 1000) ∧ gravityValid (level .hold 65536 1000) .tip = true ∧
        pull (level .hold 65536 1000) = 64 * 2 ^ 10) ∧
      (gravityValid (level .hold 65535 1000) .tip = true ∧ pull (level .hold 65535 1000) < 64 * 2 ^ 10) ∧
      (premise (level .hold 5 1081) ∧ gravityValid (level .hold 5 1081) .tip = false ∧ isActive Mode.hold = true) ∧
      (premise (level .safe 5 919) ∧ gravityValid (level .safe 5 919) .tip = false ∧ isActive Mode.safe = false) ∧
      (base.si.sen.get .tip).fresh = true ∧ (State.reset.si.sen.get .tip).fresh = false := by
  simp only []; decide +kernel

theorem test_witness_HeadingAxisEstimation :
    isHeading .pan = true ∧ isHeading .swing = true ∧ (base.si.enc.get .pan).newPos = false ∧ (base.axis .pan).active.ok = true := by
  decide +kernel

theorem test_witness_RateRampNeverPassesDemand :
    let a (d : Half) : AxisRec := { base.axes.pan with mode := .rate, rdTarget := d }
    ((a 64).mode = .rate ∧ AxisInRange (a 64)) ∧
      ((a 64).rdTarget.toInt - (a 64).rdEff.toInt).natAbs ≤ (a 64).active.amax ∧
      (((a 65).active.amax : Int) ≤ ((a 65).rdTarget.toInt - (a 65).rdEff.toInt).natAbs ∧ AxisInRange (a 65)) ∧
      (∀ m ∈ [Mode.hold, .follow], ((inMode .pan m).axis .pan).mode = m) ∧ 1 ≤ 8 := by
  decide +kernel

/-- A change of T by -7 over N = 2 is a rate of -3, toward zero, and one of -2^31 over N = 1 is limited to -32767 (R51). -/
theorem test_target_rate : targetRate 7 0 2 = -3 ∧ targetRate 0 0x80000000 1 = -32767 := by decide

theorem test_witness_SegmentEvaluation :
    (2 * min ((seg 49 .hold).k + 1) 100 = 100 ∧ (moving 98 .hold).mode = .move ∧ (moving 98 .hold).segment = some (seg 98 .hold) ∧
        (seg 98 .hold).k ≤ (seg 98 .hold).dn ∧
        min ((seg 98 .hold).k + 1) 100 < 100) ∧
      (min ((seg 99 .hold).k + 1) 100 = 100 ∧ ¬((seg 99 .hold).endMode = .follow ∧ isHeading .pan = true)) ∧
      (min ((seg 99 .follow).k + 8) 100 = 100 ∧ (seg 99 .follow).endMode = .follow ∧ isHeading .pan = true) := by decide

/-- In range at the reset limits, at rest, against the joint limits on both sides, and with the integrator blocked. -/
theorem test_witness_OutputChainLimitsDemand :
    let a (f : LimitFlag) (j t : Word) : AxisRec := { base.axes.pan with mode := .hold, satFlag := f, j := j, t := t, uPrev := 1000 }
    AxisInRange (a .none 0 0) ∧ ((-32767 : Int).natAbs ≤ 32767 ∧ (32767 : Int).natAbs ≤ 32767) ∧
      (AxisInRange (a .high 0 1) ∧ 0 < wrapDiff (a .high 0 1).t (a .high 0 1).w ∧ (a .high 0 1).satFlag = .high) ∧
      (a .none 16777216 0).active.jmax ≤ (a .none 16777216 0).j.toInt ∧
      (a .none (-16777216) 0).j.toInt ≤ (a .none (-16777216) 0).active.jmin ∧ AxisInRange (a .none 16777216 0) ∧
      (a .none 0 0).uPrev.toInt.natAbs ≤ (a .none 0 0).active.umax := by decide +kernel

theorem test_witness_SafeComputationHoldsJoint :
    let s := inMode .pan .safe
    ((s.axis .pan).mode = .safe ∧ AxisInRange (s.axis .pan) ∧ (s.si.enc.get .pan).fresh = true) ∧
      (let t := s.setEnc .pan { base.si.enc.pan with fresh := false }
       (t.axis .pan).mode = .safe ∧ AxisInRange (t.axis .pan) ∧ (t.si.enc.get .pan).fresh = false) := by decide +kernel

/-- An UNPARK of a part on whose PAN link a DRIVE word is still going out. -/
theorem test_witness_NoDriveOutsideRunning :
    let w : DriveWord := ⟨.drive, false, 2100⟩
    let s : State := { parkedState.setLink .pan { DriveLink.reset with sending := some w, lastWord := some w } with pending := [.unpark 0] }
    DriveHeldBack s ∧
      ∃ t, step s = .next t ∧ s.le.park ≠ .running ∧ t.le.park ≠ .running ∧ (t.dl.get .pan).sending = some w ∧ w.command = .drive :=
  ⟨fun k => by cases k <;> exact ⟨fun _ => rfl, fun _ w h => by cases h⟩, _, rfl, by decide +kernel, by decide +kernel,
    by decide +kernel, rfl⟩

theorem test_witness_DriveLinkEvents :
    let w : DriveWord := ⟨.brake, false, 2048⟩
    let l (a b : Option DriveWord) : DriveLink := { DriveLink.reset with sending := a, waiting := b }
    ((base.setLink .pan (l none none)).dl.get .pan).sending = none ∧
      (((base.setLink .pan (l (some w) none)).dl.get .pan).sending = some w ∧
        ((base.setLink .pan (l (some w) none)).dl.get .pan).waiting = none) ∧
      (((base.setLink .pan (l (some w) (some w))).dl.get .pan).sending = some w ∧
        ((base.setLink .pan (l (some w) (some w))).dl.get .pan).waiting = some w) ∧
      (drvSample 1 ≠ [] ∧ ((base.dl.get .pan).held ++ drvSample 1).length = 5 ∧
        crc8 ((drvSample 1).take 4) = byteAt (drvSample 1) 4) ∧
      (((base.dl.get .pan).held ++ [1, 2, 3, 4, 5]).length = 5 ∧ crc8 [1, 2, 3, 4] ≠ byteAt [1, 2, 3, 4, 5] 4) := by
  decide +kernel

theorem test_witness_KillLineEdges :
    base.killAsserted = false ∧ (base.axis .pan).active.killTiming = .immediate ∧ (base.axis .pan).active.killEffect = .halt ∧
      (let s := withAxis .pan (fun a => { a with active := { a.active with killTiming := .next, killEffect := .pause } })
       (s.axis .pan).active.killTiming = .next ∧ (s.axis .pan).active.killEffect = .pause) ∧
      ({ base with killAsserted := true } : State).killAsserted = true := by decide +kernel

theorem test_witness_TriggerLineEdges :
    let q (l a h : Bool) : Trigger := (trigState l a h).trig .trig0
    ((q false false false).line ≠ true ∧ (q false false false).holdOff = false ∧ (q false false false).accepted ≠ true) ∧
      ((q false false true).line ≠ true ∧ (q false false true).holdOff = true) ∧
      ((q false true false).line ≠ true ∧ (q false true false).accepted = true) ∧ (q true false false).line = true ∧
      ((q true true true).holdOff = true ∧ (q true true true).line = (q true true true).accepted) ∧
      ((q true false true).holdOff = true ∧ (q true false true).line ≠ (q true false true).accepted) ∧
      (q true true false).holdOff = false := by decide +kernel

theorem test_witness_GoodFrameIsAdmittedOrDropped :
    let f : Frame := ⟨1, 0, [0]⟩
    let s (n : Nat) (d : Dispatcher) : State := withCl (fun c => { c with requests := List.replicate n f, dispatcher := d })
    (s 3 (.replyWaiting f)).cl.rx = .hunt ∧ (List.replicate 1024 (0 : Byte)).length ≤ 1024 ∧
      ((s 3 (.replyWaiting f)).cl.dispatcher = .replyWaiting f ∧ (s 3 (.replyWaiting f)).cl.requests.length < 4) ∧
      ((s 4 (.replyWaiting f)).cl.dispatcher = .replyWaiting f ∧ 4 ≤ (s 4 (.replyWaiting f)).cl.requests.length) ∧
      (s 0 (.restarting none)).cl.dispatcher = .restarting none := by decide +kernel

theorem test_witness_serving : Serving State.reset ∧ Serving base ∧ Serving halted ∧ Serving noneDue ∧ Serving unparking := by
  decide +kernel

theorem test_witness_RequestTestsComeFirst :
    (LinkReady base ∧ (0x07 : Byte) ∉ requestCodes ∧ (List.replicate 1024 (0 : Byte)).length ≤ 1024) ∧
      parseRequest 0x01 [0, 0] = .badLength ∧
      ((Request.queueAdd [.cue 1 2 3]).wf = true ∧ ([.cue 1 2 3] : List RawEntry).length < (2 : Byte).toNat ∧
        (6 < (7 : Byte).toNat ∧ ((2 : Byte) :: (([.cue 1 2 3] : List RawEntry).flatMap RawEntry.bytes ++ 7 :: [])).length ≤ 1024)) ∧
      (LinkReady parkedState ∧ parkedState.le.park = .parked ∧ parseRequest 0x03 [] = .request .halt ∧
        (0x03 : Byte) ∉ ([0x01, 0x20, 0x2C, 0x31] : List Byte)) ∧
      (([0, 0] : List Byte).length ≠ 1 ∧
        (0x08 : Byte) ∈ ([0x01, 0x08, 0x0D, 0x11, 0x16, 0x20, 0x22, 0x28, 0x29, 0x2A, 0x2B, 0x2C] : List Byte)) := by
  decide +kernel

theorem test_witness_LengthErrorsAndGaps :
    (base.cl.rx = .hunt ∧ 1024 < (halfOf 4 1).toNat) ∧
      (withCl (fun c => { c with rx := .inFrame [0] })).cl.rx = .inFrame [0] ∧ ([0] : List Byte).length < 2 ∧
      (storeLength [4, 0, 3] ≤ 1024 ∧ ([4, 0, 3] : List Byte).length < storeLength [4, 0, 3] + 6) ∧
      (storeLength [0, 0, 3, 7, 1] ≤ 1024 ∧ ([0, 0, 3, 7, 1] : List Byte).length < storeLength [0, 0, 3, 7, 1] + 6) := by
  decide +kernel

theorem test_witness_CrcErrorRescans :
    base.cl.rx = .hunt ∧ (List.replicate 1024 (0 : Byte)).length ≤ 1024 ∧
      crc16 (coveredBytes 3 7 []) ≠ halfOf 0 0 ∧ (0xC5 : Byte) ∉ coveredBytes 3 7 [] ++ [0, 0] := by decide +kernel

theorem test_witness_FrameSentAndRestart :
    let f : Frame := ⟨0x41, 0, []⟩
    let r : Frame := ⟨0x82, 5, [0]⟩
    let s (q : List Frame) (d : Dispatcher) : State := withCl (fun c => { c with txQueue := q, dispatcher := d })
    let waiting (q b : List Frame) : State :=
      withCl (fun c => { c with txQueue := q, dispatcher := .replyWaiting r, requests := b })
    let halt : Frame := ⟨0x03, 1, []⟩
    let restart : Frame := ⟨0x02, 1, []⟩
    (base.cl.txQueue = [] ∧ ([f, f, f] : List Frame).length < 4 ∧ 4 ≤ (s [f, f, f, f] .ready).cl.txQueue.length) ∧
      ((s [f] .ready).cl.txQueue = f :: [] ∧ (s [f] .ready).cl.dispatcher = .ready ∧ (s [f] .ready).cl.requests = []) ∧
      ((s [f, f] (.replyWaiting r)).cl.dispatcher = .replyWaiting r ∧ (s [f, f] (.replyWaiting r)).cl.requests = []) ∧
      ((waiting [f] [halt]).cl.requests = halt :: [] ∧ halt.kind ≠ 0x02 ∧
        (serveFrame { waiting [f] [halt] with cl := { base.cl with txQueue := [r] } } halt).state.cl.txQueue.length < 4) ∧
      ((waiting [f, f, f, f] [halt, halt]).cl.requests = halt :: [halt] ∧ ([halt] : List Frame).length ≤ 3 ∧
        4 ≤ (serveFrame { base with cl := { base.cl with txQueue := [f, f, f, r] } } halt).state.cl.txQueue.length) ∧
      (restart.kind = 0x02 ∧ restart.payload = [] ∧ ([halt] : List Frame) ≠ [] ∧ ([f] ++ [r]).length < 4 ∧
        4 ≤ ([f, f, f] ++ [r]).length ∧ base.le.park ≠ .parked ∧ parkedState.le.park = .parked) ∧
      ((s [f] (.restarting (some r))).cl.dispatcher = .restarting (some r)) ∧
      ((s [f, r] (.restarting none)).cl.txQueue = f :: [r] ∧ f.kind ≠ 0x82) ∧
      ((s [r] (.restarting none)).cl.txQueue = ⟨0x82, 5, [0]⟩ :: [] ∧ (s [r] (.restarting none)).killAsserted = false) ∧
      (Serving base ∧ base.cl.txQueue.length < 4) ∧ (Serving (s [f, f, f, f] .ready) ∧ ¬(s [f, f, f, f] .ready).cl.txQueue.length < 4) := by
  decide +kernel

theorem test_witness_SilenceExpiryZeroesRates :
    let s (n : Nat) : State := withCl (fun c => { c with silence := .running, silenceElapsed := n })
    ((s 3200000).cl.silence = .running ∧ 32000 * (s 3200000).cl.setup.silenceLimit ≤ (s 3200000).cl.silenceElapsed) ∧
      ¬32000 * (s 3199999).cl.setup.silenceLimit ≤ (s 3199999).cl.silenceElapsed ∧ base.cl.silence ≠ .running := by decide +kernel

theorem test_witness_ReadRequestsAnswerAndChangeNothing :
    Serving base ∧ (0x1F : Byte) = byteOf 31 ∧ ((4 : Byte) = byteOf (axisIndex .roll) ∧ (1 : Byte) ≠ 0) ∧ 4 < (5 : Byte).toNat ∧
      LinkReady parkedState ∧ LinkReady ({ parkedState with protHigh := false } : State) := by decide +kernel

theorem test_witness_HaltRunAndStep :
    (Serving base ∧ base.le.halted = false) ∧ (Serving halted ∧ halted.le.halted = true) := by decide +kernel

/-- Out of range just below and above; the mask without a name; a selector out of range; in range at both ends; a selector present;
no timer limit present. -/
theorem test_witness_SetupWritesPresentFields :
    let f : SetupFields :=
      { noFields with staleBase := some 1, staleTip := some 64, gravBand := some 500, driverMiss := some 15, sel7 := some ⟨5, 2⟩ }
    Serving base ∧ (noFields.staleTip = none ∧ (0 : Byte).toNat < 1 ∧ 64 < (65 : Byte).toNat) ∧
      ({ noFields with bit7 := true } : SetupFields).bit7 = true ∧
      (some (⟨5, 3⟩ : RawSelector) ∈ ({ noFields with sel0 := some ⟨5, 3⟩ } : SetupFields).selectors ∧ 2 < (3 : Byte).toNat) ∧
      (setupOk f = true ∧ f.silence = none ∧ f.selectors[7]? = some (some ⟨5, 2⟩) ∧ base.ms.cueSources[7]? = some .none ∧
        selectorOf 5 2 = some (.alert .two)) ∧
      (setupOk noFields = true ∧ noFields.silence = none ∧ noFields.staleBase = none ∧ noFields.staleHead = none) := by
  decide +kernel

/-- Refused fields (FOLLOW on a level axis; neither part); a refused axis; OFF to STOPPED with DAMP. -/
theorem test_witness_ModeIsCheckedAsAWhole :
    let good (mask target damp : Byte) : Bool :=
      decide (mask ≠ 0 ∧ mask.toNat < 32 ∧ (target.toNat ≤ 4 ∨ target = 0xFF) ∧ damp.toNat ≤ 2 ∧ ¬(target = 0xFF ∧ damp = 0) ∧
        ¬(target = 4 ∧ mask &&& 0x1A ≠ 0))
    let waiting : State :=
      { base.setAxis .pan (moving 99 .hold) with
        ms := { base.ms with queue := [⟨7, 0, .goto 4 0 100 .linear .hold true⟩], phase := .waitingSegments 4 false } }
    Serving base ∧ good 2 4 0 = false ∧ good 1 0xFF 0 = false ∧ good 32 1 0 = false ∧
      (good 31 2 2 = true ∧ (base.axis .roll).mode = .off ∧ (31 : Byte).getLsbD (axisIndex .roll) = true) ∧
      (good 5 1 1 = true ∧ Serving (inMode .pan .stopped) ∧ ((inMode .pan .stopped).axis .pan).mode = .stopped ∧
        (base.axis .swing).mode ≠ .stopped) ∧
      (good 8 0xFF 2 = true ∧ good 8 2 0 = true ∧ Serving swept ∧ (8 : Byte).getLsbD (axisIndex .tilt) = true ∧
        sweeping swept .tilt = true ∧ good 8 1 0 = true ∧ (swept.axis .tilt).mode = .hold) ∧
      (good 4 2 0 = true ∧ Serving waiting ∧ waiting.ms.phase = .waitingSegments 4 false ∧ (waiting.axis .pan).mode ≠ .hold ∧
        (waiting.axis .pan).segment.map Segment.serial = some 7) := by
  decide +kernel

theorem test_witness_ModeChangesTakeTheirCaptures :
    sweeping base .pan = false ∧ isActive (base.axis .pan).mode = false ∧ isActive ((inMode .pan .rate).axis .pan).mode = true ∧
      sweeping (inMode .pan .rate) .pan = false ∧ (sweeping swept .tilt = true ∧ (swept.axis .tilt).mode = .hold) := by decide +kernel

theorem test_witness_DemandWritesRateAxes :
    (Serving (inMode .pan .rate) ∧ ([5000, 7] : List Half).length = axisCount 0x05) ∧
      (∀ k, ((inMode .pan .rate).axis k).active.ok = true) ∧ 32 ≤ (0x20 : Byte).toNat ∧ (0x05 : Byte).toNat < 32 ∧
      ((spreadOffsets 0x05 ([5000, 7] : List Half)).get .pan = some 7 ∧ ((inMode .pan .rate).axis .pan).mode = .rate) ∧
      ((spreadOffsets 0x05 ([5000, 7] : List Half)).get .swing = some 5000 ∧ ((inMode .pan .rate).axis .swing).mode ≠ .rate) ∧
      (spreadOffsets 0x05 ([5000, 7] : List Half)).get .roll = none := by
  refine ⟨?_, fun k => ?_, ?_⟩
  case refine_2 => cases k <;> decide +kernel
  all_goals decide +kernel

theorem test_witness_TuneAndApply :
    let ps : List TunePair := [⟨7, 400⟩, ⟨8, 300⟩]
    Serving base ∧ (Request.tune 3 ps).wf = true ∧ (3 : Byte) = byteOf (axisIndex .tilt) ∧
      (1 ≤ ps.length ∧ ps.length ≤ 30 ∧
        (∀ p ∈ ps, fieldApplies p.field.toNat .tilt = true ∧ fieldInRange p.field.toNat p.value.toInt = true)) ∧
      fieldApplies 17 .tilt = false ∧ (Request.tune 3 []).wf = true ∧ 4 < (5 : Byte).toNat ∧
      ((31 : Byte) ≠ 0 ∧ (31 : Byte).toNat < 32) ∧ 32 ≤ (32 : Byte).toNat := by decide +kernel

/-- One entry; eight with 24 waiting, which fill the queue; eight with 25 waiting; an entry out of range; nine; each kind of entry at the
ends of its ranges. -/
theorem test_witness_QueueAddAdmitsWhole :
    let e : RawEntry := .dwell 7 5
    let s (n : Nat) : State :=
      withMs (fun m => { m with queue := List.replicate n ⟨0, 0, .dwell 5⟩, phase := if n = 0 then .none else .pending })
    (Serving (s 0) ∧ (Request.queueAdd [e]).wf = true ∧ admitBody e ≠ none ∧ (s 0).ms.queue.length + 1 ≤ 32) ∧
      (Serving (s 24) ∧ (Request.queueAdd (List.replicate 8 e)).wf = true ∧ (s 24).ms.queue.length + 8 ≤ 32) ∧
      (Serving (s 25) ∧ 32 < (s 25).ms.queue.length + 8) ∧
      ((Request.queueAdd [.cue 0 3 1]).wf = true ∧ admitBody (.goto 0 0 64 5 0) = none) ∧
      ((Request.queueAdd (List.replicate 9 e)).wf = true ∧ progress (s 0) = false) ∧
      [admitBody (.goto 0 31 63 0 7), admitBody (.shift 0 0 [] 1048576 0), admitBody (.dwell 0 0), admitBody (.dwell 0 1048577),
          admitBody (.wait 0 1 4 0), admitBody (.wait 0 1 0xF8 0), admitBody (.wait 0 1 4 1048576), admitBody (.mode 0 31 4),
          admitBody (.mode 0 31 0)] =
        [some (.goto 31 63 1 .eased .follow true), some (.shift ⟨none, none, none, none, none⟩ 1048576 .linear .hold false),
          some (.dwell 1), none, none, some (.wait 1 false false none), some (.wait 1 false false (some 1048576)),
          some (.mode 31 .follow), none] := by decide +kernel

/-- Progress refused; each kind at the head and PENDING; a WAIT that waits with its condition met and not; a set outstanding and empty;
a dwelling head; the RUN that begins a DWELL. -/
theorem test_witness_QueueControl :
    let fresh (b : EntryBody) : Prop :=
      progress (headAt b .pending) = true ∧ (headAt b .pending).ms.queue = ⟨0, 0, b⟩ :: [] ∧ (headAt b .pending).ms.phase = .pending
    let wait (mask : Byte) : EntryBody := .wait mask true true none
    let paused : State :=
      withMs (fun m => { m with queue := [⟨0, 0, .dwell 3⟩], phase := .pending, nextSerial := 1 })
    (Serving base ∧ 3 ≤ (3 : Byte).toNat ∧ progress base = false) ∧
      (Serving paused ∧ paused.ms.phase = .pending ∧ paused.ms.holdKill = false ∧ paused.ms.holdAlert = false) ∧
      (fresh (.dwell 9) ∧ fresh (wait 1) ∧ fresh (.wait 0 false false (some 4)) ∧ fresh (.cue 1 2) ∧ fresh (.mode 4 .hold) ∧
        fresh (.goto 4 63 100 .eased .follow true) ∧ fresh (.shift ⟨none, none, some 5, none, none⟩ 100 .linear .hold false)) ∧
      (headAt (wait 1) .pending).ms.cues &&& 1 = 0 ∧ (headAt (.wait 0 false false (some 4)) .pending).ms.cues &&& 0 = 0 ∧
      ((headAt (wait 1) (.waitingCue none)).ms.phase = .waitingCue none ∧ progress (headAt (wait 1) (.waitingCue none)) = true) ∧
      ((headAt (.goto 4 0 9 .eased .hold true) (.waitingSegments 0 true)).ms.phase = .waitingSegments 0 true ∧
        (headAt (.goto 4 0 9 .eased .hold true) (.waitingSegments 4 false)).ms.phase = .waitingSegments 4 false ∧
        hasAxis 4 .pan = true ∧ hasAxis 4 .roll = false) ∧
      ((headAt (.dwell 9) (.dwelling 9)).ms.phase = .dwelling 9 ∧ base.ms.queue = []) := by decide +kernel

theorem test_witness_WaypointWritesStayInPage :
    let rs : List WptRecord := List.replicate 17 ⟨0x04, [77], 9⟩
    Serving base ∧ (Request.wptWrite 63 rs).wf = true ∧ base.ms.waypoints.length = 64 ∧
      ((63 : Byte).toNat ≤ 63 ∧ rs ≠ [] ∧ rs.length ≤ 48 ∧ ∀ r ∈ rs, r.mask.toNat < 32) ∧ base.ms.locks.getLsbD 3 = false ∧
      (withMs (fun m => { m with locks := 8 })).ms.locks.getLsbD ((63 : Byte).toNat / 16) = true ∧
      (Request.wptWrite 64 rs).wf = true ∧ 0 / 16 ≠ 63 / 16 ∧ rs.length ≤ 1 + 16 ∧ (15 : Byte).toNat ≤ 15 ∧ 15 < (16 : Byte).toNat := by
  decide +kernel

/-- The request's forms, with no WAIT at the head and with one that may not move; a change of the flags that meets the head's condition,
one that does not, and none. -/
theorem test_witness_CueWritesTableAndFlags :
    let p : CuePair := ⟨7, 5, 2⟩
    let s := headAt (.wait 1 true true none) (.waitingCue none)
    let met (c : Byte) : State := { s with ms := { s.ms with cues := c } }
    let held : State := { s with ms := { s.ms with running := false } }
    Serving base ∧ ([p] : List CuePair).length < 256 ∧ (p.cue.toNat < 8 ∧ selectorOf p.code p.param ≠ none) ∧
      selectorOf 5 3 = none ∧ base.ms.phase = .none ∧ (Serving held ∧ progress held = false) ∧
      (s.ms.phase = .waitingCue none ∧ s.ms.cues = 0 ∧ (met 2).headStep = none ∧ (met 1).headStep.isSome = true) ∧
      (let h := headAt (.dwell 7) .pending
       let u : State := { h with ms := { h.ms with phase := .dwelling 7 } }
       h.ms.phase = .pending ∧ h.headStep = some u ∧ (h.dropFallen = h ∧ risings h = []) ∧ h.arbitrate = none ∧
        (u.dropFallen = u ∧ risings u = [])) := by
  decide +kernel

/-- The requests' cases; a computation that counts; the count below its window's end, at the end of a window and of the last one, with
a good set without a gap, with one, and with none. -/
theorem test_witness_SweepStartsAndStops :
    let s (f : Sweep → Sweep) : State := { swept with sw := f swept.sw }
    let results (w : State) : List Word := w.sw.results.set w.sw.currentD (BitVec.ofNat 32 w.sw.sum)
    let good (w : State) (d : Nat) : Bool := decide ((results w).getD d 0 ≤ w.sw.q)
    (Serving (inMode .tilt .hold) ∧ (inMode .tilt .hold).sw.running = false ∧ (3 : Byte) = byteOf (axisIndex .tilt) ∧
        ((inMode .tilt .hold).axis .tilt).mode = .hold) ∧
      ((63 : Byte).toNat ≤ 63 ∧ (63 : Byte).toNat ≤ (63 : Byte).toNat ∧ 256 ≤ (256 : Half).toNat ∧ (8192 : Half).toNat ≤ 8192) ∧
      ((base.axis .tilt).mode ≠ .hold ∧ base.sw.running = false) ∧
      (Serving swept ∧ swept.sw.running = true ∧ swept.sw.axis = .tilt ∧ (swept.si.sen.get (feedbackUnit .tilt)).fresh = true ∧
        (swept.axis .tilt).killPhase = .clear ∧ (swept.axis .tilt).launch = none ∧ (swept.axis .tilt).swapPending = false) ∧
      (∀ p ∈ [KillPhase.halted, .paused],
        let u : State := { swept.setAxis .tilt { swept.axis .tilt with killPhase := p } with killAsserted := true }
        u.killAsserted = true ∧ (u.axis .tilt).killPhase ≠ .awaiting ∧ (u.axis .tilt).launch = none) ∧
      (s (fun w => { w with count := 8190 })).sw.count + 1 < 8192 ∧
      ((s (fun w => { w with currentD := 14 })).sw.wn ≤ swept.sw.count + 1 ∧ (s (fun w => { w with currentD := 14 })).sw.currentD < 15) ∧
      (swept.sw.dhi ≤ swept.sw.currentD ∧ (List.range 16).filter (good swept) = [5, 6, 7, 8, 10, 11]) ∧
      (List.range 16).filter (good (s (fun w => { w with q := 36000000 }))) = [6, 7, 8] ∧
      (List.range 16).filter (good (s (fun w => { w with q := 0 }))) = [] := by
  decide +kernel

theorem test_witness_AlertConfigurationAndCancel :
    let r : CfgRecord := ⟨25, 2, 1, 1⟩
    Serving base ∧ ([r] : List CfgRecord).length < 256 ∧ (r.source.toNat ≤ 25 ∧ r.level = 2 ∧ r.enable.toNat ≤ 1 ∧ r.kind.toNat ≤ 1 ∧
        ¬r.kind = 0) ∧
      (isEvent .test = true ∧ sourceNumber .test = (0 : Byte).toNat) ∧
      ([r].filter (fun r => r.source.toNat = sourceNumber (.driveFault .roll))).getLast? = some r ∧
      ([r].filter (fun r => r.source.toNat = sourceNumber .kill)).getLast? = none ∧
      2 ^ 26 ≤ (67108864 : Word).toNat ∧ (67108863 : Word).toNat < 2 ^ 26 := by decide +kernel

/-- A state with TEST at level 2. -/
def testTwo (s : State) : State := s.setSource .test { s.source .test with level := .two }

/-- PAN in MOVE with the segment of the head, which waits for it. -/
def headWaits : State :=
  { base.setAxis .pan (moving 98 .hold) with
    ms := { base.ms with queue := [⟨(seg 98 .hold).serial, 0, .dwell 1⟩], phase := .waitingSegments 4 false } }

/-- TEST refused for its mask; disabled; at level 2 and level 1 free; level 1 in service; at level 2 with a swept axis in the mask, and
with a GOTO at the head whose segment it aborts. -/
theorem test_witness_AlertTestIsTaken :
    let off : State := base.setSource .test { base.source .test with level := .one, enable := false }
    let busy : State := { base with alc := { base.alc with inService1 := true } }
    (Serving base ∧ (base.source .test).latched = true ∧ 32 ≤ (32 : Byte).toNat ∧ (31 : Byte).toNat < 32) ∧
      (Serving off ∧ (off.source .test).enable = false ∧ (off.source .test).latched = true) ∧
      (Serving busy ∧ (busy.source .test).level = .one ∧ busy.alc.inService1 = true) ∧
      (∀ u ∈ [testTwo base, testTwo swept, testTwo headWaits],
        Serving u ∧ (u.source .test).level = .two ∧ (u.source .test).enable = true ∧ u.alc.inService2 = false) ∧
      ((8 : Byte).getLsbD (axisIndex .tilt) = true ∧ isActive (swept.axis .tilt).mode = true ∧ sweeping swept .tilt = true) ∧
      (hasAxis 4 .pan = true ∧ isActive (headWaits.axis .pan).mode = true ∧
        (headWaits.axis .pan).segment.map Segment.serial = some (seg 98 .hold).serial) ∧
      ((base.source .test).level = .one ∧ base.alc.inService1 = false ∧ progress base = false) := by decide +kernel

/-- The cues of a taking (R99): with cue 2 on ALERT(2) and cue 3 on ALERT(1), an ALERT_TEST at level 1 sets cue 3 alone and one at level 2
cue 2 alone. -/
theorem test_taking_sets_cues :
    let s : State := { base with ms := { base.ms with cueSources := [.none, .none, .alert .two, .alert .one, .none, .none, .none, .none] } }
    (after (.alertTest 1 4 0) s).ms.cues = 8 ∧ (after (.alertTest 1 4 0) (testTwo s)).ms.cues = 4 := by decide +kernel

/-- Neither level in service; level 1 taken by TEST; level 2 taken by TEST with PAN returned to RATE, in a PAUSED and a RUNNING queue,
with a level-2 and with a level-1 source that waits. -/
theorem test_witness_ResolveRestoresTheLinkRecord :
    let one : State := { after (.alertTest 1 0x04 0) base with cl := base.cl }
    let two : State := { alertRow with cl := base.cl }
    let back := two.setAxis .pan { two.axis .pan with mode := .rate, satCount := 0, pinCount := 0, coastCount := 0 }
    let waits (s : State) (l : Level) (src : Source) : Bool :=
      (s.source src).pending && (s.source src).enable && decide ((s.source src).level = l)
    let parity (l : Level) : State :=
      two.setSource .storeParity { two.source .storeParity with level := l, enable := true, pending := true }
    let running : State := { two with ms := { two.ms with running := true } }
    let both : State := { parity .one with alc := { (parity .one).alc with inService1 := true, cause1 := one.alc.cause1, link1 := one.alc.link1 } }
    (Serving base ∧ base.alc.inService1 = false ∧ base.alc.inService2 = false ∧ (3 : Byte) ≠ 1 ∧ (3 : Byte) ≠ 2) ∧
      (Serving one ∧ one.alc.inService1 = true ∧ one.alc.cause1 = some ⟨.test, .one, 4, 0, 0⟩ ∧
        one.alc.link1 = some ⟨false, false, false, false, false⟩) ∧
      (Serving two ∧ two.alc.inService2 = true ∧ two.alc.cause2 = some ⟨.test, .two, 4, 0, 0⟩ ∧ two.ms.holdAlert = true ∧
        two.alc.link2 = some ⟨.off, .off, .rate, .off, .off⟩ ∧ two.ms.running = false ∧ (two.axis .pan).mode = .safe) ∧
      (Serving running ∧ running.ms.running = true ∧ running.alc.cause2 = two.alc.cause2 ∧ running.ms.holdAlert = true) ∧
      (Serving (parity .two) ∧ (parity .two).ms.holdAlert = true ∧ waits (parity .two) .two .storeParity = true) ∧
      (Serving (parity .one) ∧ waits (parity .one) .one .storeParity = true ∧ (parity .one).alc.inService1 = false) ∧
      (Serving both ∧ waits both .one .storeParity = true ∧ both.alc.inService1 = true ∧ both.alc.inService2 = true) ∧
      (allSources.all (fun src => !((one.source src).pending && (one.source src).enable)) &&
        allSources.all (fun src => !((two.source src).pending && (two.source src).enable)) &&
        allSources.all (fun src => !conditionTruth back src)) = true := by
  and_intros <;> decide +kernel

theorem test_witness_StoreWritingChecksInOrder :
    Serving base ∧ Serving ({ base with protHigh := false } : State) ∧ 1 < (2 : Byte).toNat := by decide +kernel

/-- A slot that is not VALID; one that is, without and with a bad word. -/
theorem test_witness_StoreLoadChecksParity :
    let good : State := withPs (fun p => { p with slots := p.slots.set 7 ⟨.valid, []⟩ })
    let bad : State := withPs (fun p => { p with slots := p.slots.set 7 ⟨.valid, [(1045, ⟨1, true, true⟩)]⟩ })
    (Serving base ∧ 7 < (8 : Byte).toNat ∧ (7 : Byte).toNat ≤ 7 ∧ base.ps.busy = .idle ∧ (base.slot 7).state ≠ .valid) ∧
      (Serving (withPs (fun p => { p with busy := .erasing 0 })) ∧ (withPs (fun p => { p with busy := .erasing 0 })).ps.busy ≠ .idle) ∧
      (Serving good ∧ (good.slot 7).state = .valid ∧ (List.range 1046).filter (fun i => badWord ((good.slot 7).image.read i)) = []) ∧
      (Serving bad ∧ (bad.slot 7).state = .valid ∧
        ((List.range 1046).filter (fun i => badWord ((bad.slot 7).image.read i))).getLast? = some 1045) := by decide +kernel

/-- R190: an image of zeros gives every field the value that 0 is clamped to, ffSign +1, N 1, the first value of R32 in the fields of two
named values, Jmax Jmin + 1; the clamps at the top of Jmin. -/
theorem test_zero_image_tuning :
    let r := loadedTuning [] 4
    let top := loadedTuning [(266, goodWord 0x7FFF), (267, goodWord 0xFFFF)] 4
    (r.ffSign = 1 ∧ r.n = 1 ∧ r.umax = 1 ∧ r.udamp = 0 ∧ r.followShift = 4 ∧ r.jmin = 0 ∧ r.jmax = 1 ∧ r.killTiming = .immediate ∧
        r.killEffect = .halt ∧ r.markUp = true ∧ r.markDown = true) ∧
      top.jmin = 2147483646 ∧ top.jmax = 2147483647 := by decide +kernel

theorem test_witness_CapturedProfileLoadsBack :
    (∀ k, (base.axis k).active.ok = true) ∧ (∀ src, isEvent src = true → (base.source src).latched = true) ∧
      base.ms.waypoints.length = 64 ∧ base.ms.cueSources.length = 8 ∧
      (let x := base.cl.setup
       20 ≤ x.silenceLimit ∧ x.silenceLimit ≤ 2000 ∧ 10 ≤ x.gravBand ∧ x.gravBand ≤ 500 ∧ 1 ≤ x.driverMissLimit ∧
         x.driverMissLimit ≤ 15) ∧
      (∀ u, 1 ≤ base.cl.setup.staleLimit.get u ∧ base.cl.setup.staleLimit.get u ≤ 64) :=
  ⟨fun k => by cases k <;> decide +kernel,
    fun src => by rcases src with _ | _ | _ | _ | _ | _ | k | k | k | k <;> (try cases k) <;> decide +kernel,
    by decide +kernel, by decide +kernel, by decide +kernel, fun u => by cases u <;> decide +kernel⟩

theorem test_witness_StoreCompletions :
    let s (b : Busy) : State := withPs (fun p => { p with busy := b })
    (s (.saving 7 [])).ps.busy = .saving 7 [] ∧ (s (.erasing 0)).ps.busy = .erasing 0 ∧
      (s (.protecting 8 true)).ps.busy = .protecting 8 true ∧ base.ps.busy = .idle := by decide +kernel

theorem test_witness_ParkAndUnpark :
    (Serving base ∧ base.le.park = .running ∧ base.ms.running = false ∧ base.sw.running = false ∧ base.ps.busy = .idle) ∧
      (∀ k, (base.axis k).mode = .off ∨ (base.axis k).mode = .stopped) ∧ (Serving swept ∧ swept.sw.running = true) ∧
      (LinkReady parkedState ∧ parkedState.le.park = .parked) ∧ (LinkReady base ∧ base.le.park ≠ .parked) ∧
      unparking.le.park = .unparking ∧ base.le.park ≠ .unparking := by
  refine ⟨?_, fun k => ?_, ?_⟩
  case refine_2 => cases k <;> decide +kernel
  all_goals decide +kernel

theorem test_witness_ReportPlanIsClamped : Serving base ∧ 8 ≤ (8 : Byte).toNat ∧ (7 : Byte).toNat < 8 := by decide +kernel

/-- A state with work to do that meets every invariant, and its step. -/
def working : State :=
  { after (.queueCtrlRun 1) (after (.queueAdd 1 [.dwell 7 5, .cue 8 1 0]) base) with pending := [.loopFrame] }
theorem test_witness_invariants : AtRest working ∧ Bounded working ∧ InRange working ∧ Coherent working := by
  refine ⟨?_, ?_, ?_, ?_⟩ <;> decide +kernel
theorem test_witness_step : ∃ t, step working = .next t := ⟨_, rfl⟩
theorem test_witness_RequestBytesReadBack : (Request.queueAdd [.shift 1 5 [7, 8] 9 3, .mode 2 1 4]).wf = true := by decide +kernel

end Sys2Proof.Tests
end

section
/-! PROOFS. The hold law (chapter 3): the clamps and fields it computes with, the pin step, and the SAFE computation. -/

namespace Sys2Proof.Machine

/-! ### Clamps, fields and tuning bounds -/

/-- Between bounds in order the clamp is the usual combination of `max` and `min`. -/
theorem clampInt_eq_max_min {a b : Int} (h : a ≤ b) (x : Int) : clampInt x a b = max a (min b x) := by
  unfold clampInt
  split
  · omega
  · split <;> omega

theorem clampSym_eq_max_min {m : Int} (h : 0 ≤ m) (x : Int) : clampSym x m = max (-m) (min m x) :=
  clampInt_eq_max_min (by omega) x

theorem natAbs_clampSym_le (x : Int) (m : Nat) : (clampSym x m).natAbs ≤ m := by
  rw [clampSym_eq_max_min m.cast_nonneg]
  omega

/-- A value of signed 16-bit range is kept whole by its field. -/
theorem toInt_half16 {x : Int} (h : x.natAbs ≤ 32767) : (half16 x).toInt = x := by
  rw [half16, BitVec.toInt_ofInt]
  exact Int.bmod_eq_of_le (by omega) (by omega)

theorem Tuning.fieldInRange_of_ok {r : Tuning} (h : r.ok = true) {n : Nat} (hn : n < 30) : fieldInRange n (r.field n) = true := by
  have hall := (Bool.and_eq_true_iff.mp h).1
  exact List.all_eq_true.mp hall n (List.mem_range.mpr hn)

/-- Usafe's range in R32, field 21. -/
theorem Tuning.usafe_le_of_ok {r : Tuning} (h : r.ok = true) : r.usafe ≤ 2000 := by
  have hrange := r.fieldInRange_of_ok h (n := 21) (by omega)
  simp only [fieldInRange, fieldBounds, Tuning.field, Bool.and_eq_true, decide_eq_true_eq] at hrange
  omega

/-! ### The pin step (R61) -/

/-- The demand sent is `u`, or 0 at a pin; its field holds it whole. -/
theorem pinned_uPrev_toInt (a : AxisRec) {u : Int} (h : u.natAbs ≤ 32767) :
    (pinned a u).uPrev.toInt = if (pinned a u).pinState = .none then u else 0 := by
  refine toInt_half16 ?_
  split <;> omega

/-! ### The SAFE computation (R63, R64) -/

/-- R63's demand, with its clamps written out. -/
theorem safeDemand_eq (a : AxisRec) :
    safeDemand a =
      max (-(a.active.usafe : Int)) (min a.active.usafe
        ((a.active.ks * max (-4194304) (min 4194304 (a.jlock.toInt - a.j.toInt)) + 524288) / 1048576)) := by
  rw [safeDemand, clampSym_eq_max_min (Nat.cast_nonneg _), clampSym_eq_max_min (m := 4194304) (by decide), roundDemand]

theorem natAbs_safeDemand_le (a : AxisRec) : (safeDemand a).natAbs ≤ a.active.usafe := natAbs_clampSym_le _ _

/-! The SAFE computation is the pin step of R61 on its own demand, with the saturation registers cleared. -/

@[simp] theorem safeDriven_pinState (a : AxisRec) : (safeDriven a).pinState = pinOf a.active a.j (safeDemand a) := rfl

theorem safeDriven_pinCount (a : AxisRec) :
    (safeDriven a).pinCount = if (safeDriven a).pinState = .none then 0 else satInc a.pinCount := rfl

/-- T, W, I and the rates, like every register not named here, are not written (R63). -/
theorem safeDriven_frame (a : AxisRec) :
    safeDriven a =
      { a with
        pinState := (safeDriven a).pinState, pinCount := (safeDriven a).pinCount, uPrev := (safeDriven a).uPrev
        satFlag := .none, satCount := 0 } := rfl

theorem safeDriven_uPrev_toInt {a : AxisRec} (h : a.active.ok = true) :
    (safeDriven a).uPrev.toInt = if (safeDriven a).pinState = .none then safeDemand a else 0 := by
  have hdemand := natAbs_safeDemand_le a
  have husafe := Tuning.usafe_le_of_ok h
  exact pinned_uPrev_toInt a (by omega)

theorem modeWork_safe {s : State} {k : Axis} (h : (s.axis k).mode = .safe) (g : Int) (n : Nat) :
    modeWork s k g n false =
      if (s.si.enc.get k).fresh then ⟨safeDriven (s.axis k), .drive, none⟩ else ⟨safeBraked (s.axis k), .brake, none⟩ := by
  simp [modeWork, h]

/-- Settles O23: step 5 in SAFE splits on the encoder's freshness; fresh, it is the pin step on R63's demand, whose field is
wide enough because Usafe is in its range; stale, it is R64's BRAKE. -/
theorem safeComputationHoldsJoint : Obligations.SafeComputationHoldsJoint := by
  intro s k g n hmode hrange
  obtain ⟨hactive, -⟩ := hrange
  dsimp only
  rw [← safeDemand_eq]
  refine ⟨?ended, fun hfresh => ?fresh, fun hstale => ?stale⟩
  case ended =>
    rw [modeWork_safe hmode]
    split <;> rfl
  case fresh =>
    rw [modeWork_safe hmode, if_pos hfresh]
    exact ⟨rfl, safeDriven_pinState _, safeDriven_pinCount _, safeDriven_uPrev_toInt hactive, safeDriven_frame _⟩
  case stale =>
    rw [modeWork_safe hmode, if_neg (by simp [hstale])]
    exact ⟨rfl, rfl⟩

end Sys2Proof.Machine
end

section
/-! PROOFS. Segments (chapter 4): the weight and offset of R85, and the target step in MOVE (R54, R31). -/

namespace Sys2Proof.Machine

/-! ### The weight (R85 steps 2 and 3) -/

theorem segmentPosition_le {k dn : Nat} (h : k ≤ dn) : k * 65536 / dn ≤ 65536 :=
  Nat.div_le_of_le_mul (Nat.mul_le_mul_right 65536 h)

/-- The subtraction of R85 step 3 never falls below 0, so the weight's natural number is formed exactly. -/
theorem cast_segmentWeight_eased {k dn : Nat} (h : k ≤ dn) :
    let p : Int := (k * 65536 / dn : Nat)
    (segmentWeight .eased k dn : Int) = (3 * p ^ 2 * 65536 - 2 * p ^ 3) / 2 ^ 32 := by
  have hcube : (k * 65536 / dn) ^ 3 ≤ (k * 65536 / dn) ^ 2 * 65536 := by
    rw [pow_succ]
    exact Nat.mul_le_mul_left _ (segmentPosition_le h)
  have hle : 2 * (k * 65536 / dn) ^ 3 ≤ 3 * (k * 65536 / dn) ^ 2 * 65536 := by omega
  simp only [segmentWeight, Nat.cast_ofNat, Int.natCast_ediv, Nat.cast_sub hle, Nat.cast_mul, Nat.cast_pow]

/-- With `q` the distance left, the cubic falls short of `65536 ^ 3` by `3·p·q² + q³`. -/
theorem easedCubic_le {p : Nat} (h : p ≤ 65536) : 3 * p ^ 2 * 65536 - 2 * p ^ 3 ≤ 2 ^ 32 * 65536 := by
  obtain ⟨q, hq⟩ := Nat.exists_eq_add_of_le h
  have shortfall : 3 * p ^ 2 * (p + q) + (3 * (p * q ^ 2) + q ^ 3) = (p + q) ^ 3 + 2 * p ^ 3 := by ring
  rw [← hq] at shortfall
  omega

theorem segmentWeight_le (shape : Shape) {k dn : Nat} (h : k ≤ dn) : segmentWeight shape k dn ≤ 65536 := by
  have hp := segmentPosition_le h
  cases shape with
  | linear => exact hp
  | eased => exact Nat.div_le_of_le_mul (easedCubic_le hp)

/-- Halfway through the computations either shape has gone half of the way. -/
theorem segmentWeight_midpoint (shape : Shape) {k dn : Nat} (hdn : 1 ≤ dn) (h : 2 * k = dn) :
    segmentWeight shape k dn = 32768 := by
  have hp : k * 65536 / dn = 32768 := Nat.div_eq_of_eq_mul_right hdn (by omega)
  cases shape <;> simp [segmentWeight, hp]

theorem segmentWeight_end (shape : Shape) {dn : Nat} (hdn : 1 ≤ dn) : segmentWeight shape dn dn = 65536 := by
  have hp : dn * 65536 / dn = 65536 := Nat.mul_div_cancel_left _ hdn
  cases shape <;> simp [segmentWeight, hp]

/-! ### The offset (R85 step 4) -/

/-- A weight of at most one takes no difference past itself, nor past 0 on its other side. -/
theorem weighted_between (d : Int) {w : Nat} (hw : w ≤ 65536) :
    min 0 d ≤ (d * w).tdiv 65536 ∧ (d * w).tdiv 65536 ≤ max 0 d := by
  have hweight : (w : Int) ≤ 65536 := by exact_mod_cast hw
  have tdiv_mono {x y : Int} (h : x ≤ y) : x.tdiv 65536 ≤ y.tdiv 65536 := Int.tdiv_le_tdiv (by decide) h
  have hzero : (0 : Int).tdiv 65536 = 0 := Int.zero_tdiv 65536
  have hwhole : (d * 65536).tdiv 65536 = d := Int.mul_tdiv_cancel d (by decide)
  rcases le_total 0 d with hd | hd
  · have hlow := tdiv_mono (mul_nonneg hd w.cast_nonneg)
    have hhigh := tdiv_mono (mul_le_mul_of_nonneg_left hweight hd)
    omega
  · have hlow := tdiv_mono (mul_le_mul_of_nonpos_left hweight hd)
    have hhigh := tdiv_mono (mul_nonpos_of_nonpos_of_nonneg hd w.cast_nonneg)
    omega

/-- The sentence of R85: the offset lies between S0 and S1. -/
theorem segmentOffset_between {g : Segment} (h : g.k ≤ g.dn) :
    min g.s0.toInt g.s1.toInt ≤ segmentOffset g ∧ segmentOffset g ≤ max g.s0.toInt g.s1.toInt := by
  have hadded := weighted_between (g.s1.toInt - g.s0.toInt) (segmentWeight_le g.shape h)
  unfold segmentOffset
  omega

theorem segmentOffset_end {g : Segment} (hdn : 1 ≤ g.dn) (h : g.k = g.dn) : segmentOffset g = g.s1.toInt := by
  rw [segmentOffset, h, segmentWeight_end g.shape hdn, Nat.cast_ofNat, Int.mul_tdiv_cancel _ (by decide)]
  omega

/-! ### The target step in MOVE (R54, R31) -/

theorem advanced_k_le (g : Segment) (n : Nat) : (advanced g n).k ≤ (advanced g n).dn := Nat.min_le_right _ _

theorem targetRule_move (k : Axis) {a : AxisRec} (n : Nat) {g : Segment} (hmode : a.mode = .move)
    (hseg : a.segment = some g) :
    targetRule k a n =
      let h := advanced g n
      let t := wrapAdd (if isHeading k then a.f else 0) (segmentOffset h)
      if h.k = h.dn then (segmentEnded k { a with t := t } h, some h.serial)
      else ({ a with t := t, segment := some h }, none) := by
  simp only [targetRule, hmode, moveStep, hseg]

theorem segmentEnded_follow {k : Axis} (a : AxisRec) {g : Segment} (h : g.endMode = .follow ∧ isHeading k = true) :
    segmentEnded k a g = { a with mode := .follow, o := g.s1, segment := none } := if_pos h

theorem segmentEnded_hold {k : Axis} (a : AxisRec) {g : Segment} (h : ¬(g.endMode = .follow ∧ isHeading k = true)) :
    segmentEnded k a g = { a with mode := .hold, segment := none } := if_neg h

/-- Settles O21: the weight's bound carries over to the offset, the weight is whole at the end, and the target step takes the
running or the ending case by whether the advanced k has reached Dn. -/
theorem segmentEvaluation : Obligations.SegmentEvaluation := by
  intro k a n g hmode hseg _ hdn _ _ h p w offset r t
  have hk : h.k ≤ h.dn := advanced_k_le g n
  have hw : segmentWeight h.shape h.k h.dn = w := by
    unfold w
    cases h.shape with
    | linear => rfl
    | eased => exact cast_segmentWeight_eased hk
  have hr : r = _ := targetRule_move k n hmode hseg
  obtain ⟨hlow, hhigh⟩ := segmentOffset_between hk
  refine ⟨segmentPosition_le hk, ?weight, fun hmid => ?midpoint, ?offset, hlow, hhigh, fun hrunning => ?running, fun hended =>
    ⟨segmentOffset_end hdn hended, fun hfollow hheading => ?follow, fun hother => ?hold⟩⟩
  case weight => exact hw ▸ Int.ofNat_le.mpr (segmentWeight_le h.shape hk)
  case midpoint => exact hw ▸ congrArg Nat.cast (segmentWeight_midpoint h.shape hdn hmid)
  case offset => exact hw ▸ rfl
  case running => exact hr.trans (if_neg hrunning.ne)
  case follow =>
    rw [hr]
    exact (if_pos hended).trans (congrArg (·, some g.serial) (segmentEnded_follow _ ⟨hfollow, hheading⟩))
  case hold =>
    rw [hr]
    exact (if_pos hended).trans (congrArg (·, some g.serial) (segmentEnded_hold _ hother))

end Sys2Proof.Machine
end

section
/-! PROOFS. The console link (chapter 9): what one byte does to the receive assembler, a frame that is not yet complete, length
errors and gaps (R162 to R164). -/

namespace Sys2Proof.Machine

/-! ### One byte taken (R162, R163) -/

/-- The assembler waits for more bytes after `store`: the length is not whole yet, or it is in range and bytes of its frame are
missing. -/
abbrev StoreIncomplete (store : List Byte) : Prop :=
  store.length < 2 ∨ storeLength store ≤ 1024 ∧ store.length < storeLength store + 6

theorem takeByte_hunt {s : State} (h : s.cl.rx = .hunt) (b : Byte) :
    s.takeByte b = (s.setRx (if b = 0xC5 then .inFrame [] else .hunt), []) := by
  unfold State.takeByte
  rw [h]
  split_ifs
  · rfl
  · rw [setRx_self h]

theorem takeByte_incomplete {s : State} {held : List Byte} {b : Byte} (h : s.cl.rx = .inFrame held)
    (hstore : StoreIncomplete (held ++ [b])) : s.takeByte b = (s.setRx (.inFrame (held ++ [b])), []) := by
  unfold State.takeByte
  rw [h]
  by_cases hshort : (held ++ [b]).length < 2
  · exact if_pos hshort
  · obtain ⟨hrange, hmissing⟩ := hstore.resolve_left hshort
    exact (if_neg hshort).trans ((if_neg hrange.not_gt).trans (if_pos hmissing))

theorem takeByte_lengthError {s : State} {held : List Byte} {b : Byte} (h : s.cl.rx = .inFrame held)
    (hwhole : 2 ≤ (held ++ [b]).length) (hlong : 1024 < storeLength (held ++ [b])) :
    s.takeByte b = ((s.setRx .hunt).countLengthError, held ++ [b]) := by
  unfold State.takeByte
  rw [h]
  exact (if_neg hwhole.not_gt).trans (if_pos hlong)

/-! ### A frame that is not yet complete (R162) -/

theorem storeLength_cons_cons (hi lo : Byte) (rest : List Byte) : storeLength (hi :: lo :: rest) = (halfOf hi lo).toNat := rfl

/-- Once the two length bytes are in, later bytes do not change the length. -/
theorem storeLength_append {store : List Byte} (h : 2 ≤ store.length) (more : List Byte) :
    storeLength (store ++ more) = storeLength store := by
  match store, h with
  | hi :: lo :: rest, _ => rw [List.cons_append, List.cons_append, storeLength_cons_cons, storeLength_cons_cons]

theorem StoreIncomplete.of_append {store more : List Byte} (h : StoreIncomplete (store ++ more)) : StoreIncomplete store := by
  rcases Nat.lt_or_ge store.length 2 with hshort | hwhole
  · exact .inl hshort
  · rw [StoreIncomplete, storeLength_append hwhole, List.length_append] at h
    omega

/-- Bytes that leave the frame incomplete are held, whatever else they are. -/
theorem feedLoop_incomplete {fuel : Nat} {bs : List Byte} {s : State} {held : List Byte} (h : s.cl.rx = .inFrame held)
    (hstore : StoreIncomplete (held ++ bs)) (hfuel : bs.length ≤ fuel) :
    feedLoop fuel bs s = s.setRx (.inFrame (held ++ bs)) := by
  induction bs generalizing fuel s held with
  | nil => rw [feedLoop_nil, List.append_nil, setRx_self h]
  | cons b bs ih =>
    obtain ⟨fuel, rfl⟩ := Nat.exists_eq_add_of_le' (Nat.one_le_of_lt hfuel)
    rw [List.append_cons] at hstore
    rw [feedLoop_cons, takeByte_incomplete h hstore.of_append, List.nil_append,
      ih rfl hstore (Nat.le_of_succ_le_succ hfuel), setRx_setRx, List.append_cons held b bs]

/-! ### Bytes on the line -/

theorem feedLink_nil (s : State) : s.feedLink [] = s := feedLoop_nil _ s

theorem le_feedFuel (m : Nat) : m ≤ feedFuel m := by
  unfold feedFuel
  nlinarith

theorem feedLink_start {s : State} (h : s.cl.rx = .hunt) (bs : List Byte) :
    s.feedLink (0xC5 :: bs) = feedLoop (feedFuel (bs.length + 1) - 1) bs (s.setRx (.inFrame [])) := by
  have hheld : heldCount s = 0 := by rw [heldCount, h]
  obtain ⟨fuel, hfuel⟩ := Nat.exists_eq_add_of_le' (Nat.one_le_of_lt (le_feedFuel (bs.length + 1)))
  rw [State.feedLink, hheld, Nat.zero_add, List.length_cons, hfuel, feedLoop_cons, takeByte_hunt h, if_pos rfl]
  rfl

theorem feedLink_incomplete {s : State} {store : List Byte} (h : s.cl.rx = .hunt) (hstore : StoreIncomplete store) :
    s.feedLink (0xC5 :: store) = s.setRx (.inFrame store) := by
  have hfuel := le_feedFuel (store.length + 1)
  rw [feedLink_start h]
  exact feedLoop_incomplete (held := []) rfl hstore (by omega)

/-! ### Length errors (R163) -/

/-- Two bytes taken in HUNT: the first may be a start byte, else the second. -/
theorem feedLoop_hunt_two {s : State} (h : s.cl.rx = .hunt) (hi lo : Byte) (fuel : Nat) :
    feedLoop (fuel + 2) [hi, lo] s =
      s.setRx (if hi = 0xC5 then .inFrame [lo] else if lo = 0xC5 then .inFrame [] else .hunt) := by
  rw [feedLoop_cons, takeByte_hunt h]
  split_ifs with hstart hlow
  · exact feedLoop_incomplete (bs := [lo]) (held := []) rfl (.inl (by simp)) (by simp)
  all_goals rw [setRx_self h, List.nil_append, feedLoop_cons, takeByte_hunt h, List.append_nil, feedLoop_nil]
  · rw [if_pos hlow]
  · rw [if_neg hlow, setRx_self h]

theorem feedLink_lengthError {s : State} {hi lo : Byte} (h : s.cl.rx = .hunt) (hlong : 1024 < (halfOf hi lo).toNat) :
    s.feedLink [0xC5, hi, lo] =
      s.countLengthError.setRx (if hi = 0xC5 then .inFrame [lo] else if lo = 0xC5 then .inFrame [] else .hunt) := by
  have hstore : 1024 < storeLength ([hi] ++ [lo]) := storeLength_cons_cons hi lo [] ▸ hlong
  calc s.feedLink [0xC5, hi, lo]
    _ = feedLoop 19 [hi, lo] (s.setRx (.inFrame [])) := feedLink_start h _
    _ = feedLoop 18 [lo] (s.setRx (.inFrame [hi])) := by
      rw [feedLoop_cons, takeByte_incomplete (held := []) rfl (.inl (by simp))]
      rfl
    _ = feedLoop 17 [hi, lo] ((s.setRx .hunt).countLengthError) := by
      rw [feedLoop_cons, takeByte_lengthError (held := [hi]) rfl le_rfl hstore]
      rfl
    _ = _ := feedLoop_hunt_two rfl hi lo 15

/-! ### Gaps (R164) -/

theorem linkGap_hunt {s : State} (h : s.cl.rx = .hunt) : s.linkGap = s := by
  rw [State.linkGap, h]

theorem linkGap_inFrame {s : State} {held : List Byte} (h : s.cl.rx = .inFrame held) :
    s.linkGap = (s.setRx .hunt).countGap := by
  rw [State.linkGap, h]

theorem exec_lengthError (hi lo : Byte) (s : State) : exec (.lengthError hi lo) s = .next (s.feedLink [0xC5, hi, lo]) := rfl

theorem exec_gap (bs : List Byte) (s : State) : exec (.gap bs) s = .next (s.feedLink bs).linkGap := rfl

/-- Settles O30: a length error is counted when the second length byte comes in and both are taken again in HUNT; a gap meets the
assembler as the bytes before it leave it, in HUNT or with a frame that is not yet complete. -/
theorem lengthErrorsAndGaps : Obligations.LengthErrorsAndGaps := by
  intro hi lo s c gapped
  refine ⟨fun h hlong => ?lengthError, fun held h => ?held, fun h => ?hunt, fun store h hstore => ?store⟩
  case lengthError =>
    rw [exec_lengthError, feedLink_lengthError h hlong]
    rfl
  case held =>
    rw [exec_gap, feedLink_nil, linkGap_inFrame h]
    rfl
  case hunt => rw [exec_gap, feedLink_nil, linkGap_hunt h]
  case store =>
    rw [exec_gap, feedLink_incomplete h hstore, linkGap_inFrame rfl]
    rfl

end Sys2Proof.Machine
end

section
/-! PROOFS. Tuning records (2.8, 2.9): what a field holds after a write, and what keeps a record within the ranges of R32. -/

namespace Sys2Proof.Machine

/-! ### Writing a field -/

theorem Tuning.setField_of_ge (r : Tuning) {n : Nat} (h : 30 ≤ n) (v : Int) : r.setField n v = r := by
  unfold Tuning.setField
  split <;> first | rfl | omega

/-- The bounds of a value in its field's range. -/
theorem bounds_of_fieldInRange {n : Nat} {v : Int} (h : fieldInRange n v = true) : (fieldBounds n).1 ≤ v ∧ v ≤ (fieldBounds n).2 := by
  unfold fieldInRange at h
  simp only [Bool.and_eq_true, decide_eq_true_eq] at h
  exact h.1

/-- A field reads back the value in its range that was written. -/
theorem Tuning.field_setField_same (r : Tuning) {n : Nat} (hn : n < 30) {v : Int} (hv : fieldInRange n v = true) :
    (r.setField n v).field n = v := by
  obtain ⟨hlow, hhigh⟩ := bounds_of_fieldInRange hv
  interval_cases n <;> simp only [fieldBounds] at hlow hhigh <;> simp only [Tuning.setField, Tuning.field] <;>
    first
      | rfl
      | omega
      | (obtain rfl | rfl : v = 0 ∨ v = 1 := by omega
         all_goals simp [boolInt])

/-- The other fields stay. -/
theorem Tuning.field_setField_other (r : Tuning) {n m : Nat} (h : m ≠ n) (v : Int) : (r.setField n v).field m = r.field m := by
  unfold Tuning.setField
  split <;> first
    | rfl
    | (unfold Tuning.field; split <;> first | rfl | exact absurd rfl h)

/-! ### Records in range -/

/-- Every field is in its range, taken alone (R33 step 3). -/
def Tuning.fieldsOk (r : Tuning) : Prop := ∀ n < 30, fieldInRange n (r.field n) = true

theorem Tuning.ok_iff (r : Tuning) : r.ok = true ↔ r.fieldsOk ∧ r.crossOk = true := by
  simp [Tuning.ok, Tuning.fieldsOk]

theorem Tuning.fieldsOk.setField {r : Tuning} (h : r.fieldsOk) {n : Nat} {v : Int} (hv : fieldInRange n v = true) :
    (r.setField n v).fieldsOk := by
  intro m hm
  by_cases hn : 30 ≤ n
  · rw [r.setField_of_ge hn]; exact h m hm
  by_cases he : m = n
  · subst he; rw [r.field_setField_same hm hv]; exact hv
  · rw [r.field_setField_other he]; exact h m hm

theorem Tuning.fieldsOk_reset {n : Nat} (h : n = 1 ∨ n = 4) : (Tuning.reset n).fieldsOk := by
  unfold Tuning.fieldsOk
  rcases h with rfl | rfl <;> decide

theorem Tuning.ok_reset {n : Nat} (h : n = 1 ∨ n = 4) : (Tuning.reset n).ok = true :=
  (Tuning.ok_iff _).mpr ⟨Tuning.fieldsOk_reset h, rfl⟩

/-- The bounds of R32 that later proofs compute with. -/
structure Tuning.Bounds (r : Tuning) : Prop where
  d : r.d ≤ 63
  umax : r.umax ≤ 2000
  udamp : r.udamp ≤ r.umax
  usafe : r.usafe ≤ r.umax
  l : r.l ≤ 2000
  imax : r.imax ≤ 1073741824
  rmax : r.rmax ≤ 32767
  amax : r.amax ≤ 32767
  n : r.n = 1 ∨ r.n = 2 ∨ r.n = 4 ∨ r.n = 8

theorem Tuning.bounds_of_ok {r : Tuning} (h : r.ok = true) : r.Bounds := by
  obtain ⟨hf, hc⟩ := (Tuning.ok_iff r).mp h
  simp only [Tuning.crossOk, Bool.and_eq_true, decide_eq_true_eq] at hc
  have hb (n : Nat) (hn : n < 30) := bounds_of_fieldInRange (hf n hn)
  have hn := hf 6 (by omega)
  have hd := hb 5 (by omega)
  have humax := hb 7 (by omega)
  have hl := hb 9 (by omega)
  have himax := hb 10 (by omega)
  have hrmax := hb 11 (by omega)
  have hamax := hb 12 (by omega)
  simp only [fieldBounds, Tuning.field, fieldInRange, Bool.and_eq_true, decide_eq_true_eq] at hd humax hl himax hrmax hamax hn
  exact ⟨by omega, by omega, by omega, by omega, by omega, by omega, by omega, by omega, by omega⟩

/-- D written within 0..63 leaves a record in range. -/
theorem Tuning.ok_setD {r : Tuning} (h : r.ok = true) {d : Nat} (hd : d ≤ 63) : ({ r with d := d } : Tuning).ok = true := by
  obtain ⟨hf, hc⟩ := (Tuning.ok_iff r).mp h
  have hv : fieldInRange 5 (d : Int) = true := by
    simp only [fieldInRange, fieldBounds, Bool.and_true, Bool.and_eq_true, decide_eq_true_eq]
    omega
  exact (Tuning.ok_iff _).mpr ⟨hf.setField hv, hc⟩

/-! ### TUNE's trial record (R33) -/

theorem Tuning.fieldsOk_trial {r : Tuning} (h : r.fieldsOk) {k : Axis} {pairs : List TunePair} (hp : pairs.all (pairOk k) = true) :
    (trialRecord r pairs).fieldsOk := by
  unfold trialRecord
  induction pairs generalizing r with
  | nil => exact h
  | cons p ps ih =>
    rw [List.all_cons, Bool.and_eq_true] at hp
    obtain ⟨hpair, hrest⟩ := hp
    simp only [pairOk, Bool.and_eq_true] at hpair
    exact ih (h.setField hpair.2) hrest

/-! ### A loaded record (R190) -/

theorem fieldInRange_loadedField (n : Nat) (v : Int) : fieldInRange n (loadedField n v) = true := by
  have hclamp {a b : Int} (h : a ≤ b) : a ≤ clampInt v a b ∧ clampInt v a b ≤ b := by
    rw [clampInt_eq_max_min h]; omega
  have hbool (b : Bool) : 0 ≤ boolInt b ∧ boolInt b ≤ 1 := by cases b <;> decide
  have hbounds : (fieldBounds n).1 ≤ (fieldBounds n).2 := by unfold fieldBounds; split <;> decide
  unfold loadedField
  split
  · split <;> decide
  · split_ifs <;> decide
  · simpa [fieldInRange, fieldBounds] using hbool _
  · simpa [fieldInRange, fieldBounds] using hbool _
  · simpa [fieldInRange, fieldBounds] using hbool _
  · simpa [fieldInRange, fieldBounds] using hbool _
  · have hin := hclamp hbounds
    simpa [fieldInRange] using hin

theorem Tuning.fieldsOk_loaded (vs : List (Int × Nat)) {r : Tuning} (h : r.fieldsOk) :
    (vs.foldl (fun r p => r.setField p.2 (loadedField p.2 p.1)) r).fieldsOk := by
  induction vs generalizing r with
  | nil => exact h
  | cons p ps ih => exact ih (h.setField (fieldInRange_loadedField p.2 p.1))

/-- Umax and the demands under it, and the joint limits, after the cross-clamps. -/
theorem Tuning.ok_crossClamp {r : Tuning} (h : r.fieldsOk) : r.crossClamp.ok = true := by
  have hb (n : Nat) (hn : n < 30) := bounds_of_fieldInRange (h n hn)
  have hudamp := hb 8 (by omega)
  have husafe := hb 21 (by omega)
  have hjmin := hb 13 (by omega)
  simp only [fieldBounds, Tuning.field, int32Min, int32Max] at hudamp husafe hjmin
  have hclamped : ({ r with udamp := min r.udamp r.umax, usafe := min r.usafe r.umax } : Tuning).fieldsOk := by
    have h8 : fieldInRange 8 ((min r.udamp r.umax : Nat) : Int) = true := by
      simp only [fieldInRange, fieldBounds, Bool.and_true, Bool.and_eq_true, decide_eq_true_eq]; omega
    have h21 : fieldInRange 21 ((min r.usafe r.umax : Nat) : Int) = true := by
      simp only [fieldInRange, fieldBounds, Bool.and_true, Bool.and_eq_true, decide_eq_true_eq]; omega
    exact (h.setField h8).setField h21
  unfold Tuning.crossClamp
  dsimp only
  split
  · next hlt => exact (Tuning.ok_iff _).mpr ⟨hclamped, by simp [Tuning.crossOk]; exact hlt⟩
  split
  · have h13 : fieldInRange 13 (int32Max - 1) = true := by decide
    have h14 : fieldInRange 14 int32Max = true := by decide
    exact (Tuning.ok_iff _).mpr ⟨(hclamped.setField h13).setField h14, by simp [Tuning.crossOk, int32Max]⟩
  · next hne =>
    have h14 : fieldInRange 14 (r.jmin + 1) = true := by
      simp only [fieldInRange, fieldBounds, int32Min, int32Max, Bool.and_true, Bool.and_eq_true, decide_eq_true_eq] at hne ⊢
      omega
    exact (Tuning.ok_iff _).mpr ⟨hclamped.setField h14, by simp [Tuning.crossOk]⟩

/-- Whatever an image holds, the record loaded from it is within R32's ranges (R190). -/
theorem Tuning.ok_ofLoaded (vs : List Int) : (Tuning.ofLoaded vs).ok = true :=
  Tuning.ok_crossClamp (Tuning.fieldsOk_loaded _ (Tuning.fieldsOk_reset (.inl rfl)))

theorem ok_loadedTuning (img : Image) (a : Nat) : (loadedTuning img a).ok = true := Tuning.ok_ofLoaded _

end Sys2Proof.Machine
end

section
/-! PROOFS. The induction over a step, once for every invariant: what the parts of an event keep, the command and the step keep. -/

namespace Sys2Proof.Machine

/-! ### The parts of an event -/

/-- A change of the Console Link's registers that leaves the silence state and the bounds on its two queues. -/
structure LinkChange (c d : Console) : Prop where
  silence : d.silence = c.silence
  requests : c.requests.length ≤ 4 → d.requests.length ≤ 4
  txQueue : c.txQueue.length ≤ 4 → d.txQueue.length ≤ 4

/-- A change of the ports that makes none fresh and none stale. -/
structure PortsChange (x y : SensorIntake) : Prop where
  sen : ∀ u, (y.sen.get u).fresh = (x.sen.get u).fresh
  enc : ∀ k, (y.enc.get k).fresh = (x.enc.get k).fresh

/-- A change of an axis that no alert condition sees and that stays in range. -/
structure QuietAxis (a b : AxisRec) : Prop where
  mode : b.mode = a.mode
  active : b.active = a.active
  counts : b.coastCount = a.coastCount ∧ b.pinCount = a.pinCount ∧ b.satCount = a.satCount
  inRange : AxisInRange a → AxisInRange b

/-- UNPARK's writes, before anything reacts (R196, R16). -/
def State.reopened (s : State) : State :=
  ({ s with si := s.si.reopen, le := { s.le with park := .unparking, settleElapsed := 0 } } : State).setFrameTimer

theorem takeUnpark_eq (s : State) : s.takeUnpark = s.reopened.settle [] := rfl

/-- The rules by which an invariant is upheld: `P` between the parts of an event, `Q` within one (until the settling that ends it), `R`
at the end of a step. The parts are the operations that the meanings of the commands are made of. -/
structure Upheld (Q P R : State → Prop) : Prop where
  within : ∀ {s}, P s → Q s
  final : ∀ {s}, P s → R s
  settle : ∀ {s} due, due.length ≤ 27 → Q s → P (s.settle due)
  choose : ∀ {s} n, P s → P (s.choose n).2
  -- resets, time and the line pins
  reset : ∀ {s} cause pins, P s → R (s.resetWith cause pins)
  tick : ∀ {s}, P s → P s.tick
  prot : ∀ {s} b, P s → P (s.setProt b)
  trig : ∀ {s} line t, P s → P (s.setTrig line t)
  assertKill : ∀ {s}, P s → P s.assertKill
  releaseKill : ∀ {s}, P s → P s.releaseKill
  -- ports and drive links
  ports : ∀ {s x}, PortsChange s.si x → P s → P { s with si := x }
  portsWithin : ∀ {s} x, Q s → Q { s with si := x }
  linkHeld : ∀ {s} k held, P s → P (s.setLink k { s.dl.get k with held := held })
  keepReport : ∀ {s} k r, P s → P (s.setLink k ((s.dl.get k).keepReport r s.le.frameNo))
  wordSent : ∀ {s} k, P s → P (s.driveWordSent k)
  -- loop frames
  beginFrame : ∀ {s}, P s → P s.beginFrame
  restartFrameTimer : ∀ {s}, P s → P s.restartFrameTimer
  computeAxis : ∀ {s} k n, Q s → Q (s.computeAxis k n).1
  reportSegment : ∀ {s} k n b, Q s → Q (s.reportSegment k n b)
  changeCues : ∀ {s} c, Q s → Q (s.changeCues c)
  countFrame : ∀ {s}, Q s → Q s.countFrame
  -- the Console Link
  link : ∀ {s c}, LinkChange s.cl c → P s → P { s with cl := c }
  setup : ∀ {s} x, Q s → Q { s with cl := { s.cl with setup := x } }
  restartSilence : ∀ {s}, Q s → Q s.restartSilence
  expireSilence : ∀ {s}, Q s → Q s.expireSilence
  -- axes and sweep
  axes : ∀ {s x}, (∀ k, QuietAxis (s.axes.get k) (x.get k)) → P s → P { s with axes := x }
  applyMode : ∀ {s} m t d, Q s → Q (s.applyMode m t d)
  startSweep : ∀ {s} k dlo dhi wn q, dlo ≤ dhi → dhi ≤ 63 → P s → P (s.startSweep k dlo dhi wn q)
  abortSweep : ∀ {s}, s.sw.running = true → P s → P s.abortSweep
  loadTuning : ∀ {s} img, Q s → Q (s.loadTuning img)
  -- moves and cues
  enqueue : ∀ {s es}, es ≠ [] → s.ms.queue.length + es.length ≤ 32 → Q s → Q (s.enqueue es)
  run : ∀ {s}, Q s → Q (s.setRunning true)
  pause : ∀ {s}, P s → P (s.setRunning false)
  flush : ∀ {s}, P s → P s.flush
  pages : ∀ {s ws} locks, ws.length = s.ms.waypoints.length → P s → P { s with ms := { s.ms with waypoints := ws, locks := locks } }
  loadWaypoints : ∀ {s} img, Q s → Q (s.loadWaypoints img)
  cueTable : ∀ {s t}, (s.ms.cueSources.length = 8 → t.length = 8) → Q s → Q (s.setCueTable t)
  -- alerts
  clearSeen : ∀ {s}, P s → P { s with alc := { s.alc with seen1 := false, seen2 := false } }
  configure : ∀ {s} cs, Q s → Q (s.configure cs)
  testMask : ∀ {s} m, Q s → Q (s.setTestMask m)
  cancel : ∀ {s} m, P s → P (s.cancel m)
  endService1 : ∀ {s}, Q s → Q s.restoreDamp.endService1
  resolve2 : ∀ {s}, s.alc.inService2 = true → P s → P s.resolve2
  -- the store
  store : ∀ {s p}, (s.ps.wf = true → p.wf = true) → P s → P { s with ps := p }
  -- park and bench
  park : ∀ {s}, P s → P s.takePark
  unpark : ∀ {s}, s.le.park = .parked → P s → Q s.reopened
  settlingEnd : ∀ {s}, P s → R s.endSettling
  halt : ∀ {s}, P s → P s.takeHalt
  resume : ∀ {s}, P s → P s.takeRun

/-! ### Facts about the parts -/

theorem keeps_foldl {α β : Type} {P : α → Prop} {f : α → β → α} (h : ∀ s b, P s → P (f s b)) (l : List β) (s : α) (hs : P s) :
    P (l.foldl f s) := by
  induction l generalizing s with
  | nil => exact hs
  | cons b l ih => exact ih _ (h s b hs)

theorem length_allSources : allSources.length = 26 := rfl

/-- No more conditions rise at a judging than there are sources. -/
theorem length_risings_le (s : State) : (risings s).length ≤ 26 := length_allSources ▸ List.length_filter_le _ _

theorem length_rose_le (s : State) (k : Axis) (n : Nat) : (s.computeAxis k n).2.rose.length ≤ 26 := length_risings_le _

theorem PortsChange.setSen {x : SensorIntake} {u : SenUnit} {p : InertialPort} (h : p.fresh = (x.sen.get u).fresh) :
    PortsChange x { x with sen := x.sen.set u p } where
  sen v := by
    rw [Three.get_set]
    split
    · subst v; exact h
    · rfl
  enc _ := rfl

theorem PortsChange.setEnc {x : SensorIntake} {k : Axis} {p : EncoderPort} (h : p.fresh = (x.enc.get k).fresh) :
    PortsChange x { x with enc := x.enc.set k p } where
  sen _ := rfl
  enc j := by
    rw [Five.get_set]
    split
    · subst j; exact h
    · rfl

theorem Store.wf_iff (p : Store) :
    p.wf = true ↔ p.slots.length = 8 ∧ (∀ x ∈ p.slots, x.image.wf = true) ∧ p.protectCount ≤ 8 ∧
      (∀ k img, p.busy = .saving k img → img.wf = true) ∧ (∀ c f, p.busy = .protecting c f → c ≤ 8) := by
  unfold Store.wf
  cases p.busy <;> simp [and_assoc]

theorem Store.wf_setSlot {p : Store} {k : Nat} {x : Slot} (hx : x.image.wf = true) (h : p.wf = true) :
    ({ p with slots := p.slots.set k x } : Store).wf = true := by
  rw [Store.wf_iff] at h ⊢
  obtain ⟨hlen, himg, hrest⟩ := h
  refine ⟨by simpa using hlen, fun y hy => ?_, hrest⟩
  rcases List.mem_or_eq_of_mem_set hy with hmem | rfl
  · exact himg y hmem
  · exact hx

theorem Store.wf_slot {s : State} (h : s.ps.wf = true) (k : Nat) : (s.slot k).image.wf = true := by
  unfold State.slot
  rw [List.getD_eq_getElem?_getD]
  cases hk : s.ps.slots[k]? with
  | none => rfl
  | some x => exact ((Store.wf_iff _).mp h).2.1 x (List.mem_of_getElem? hk)

theorem Store.wf_markPartial {s : State} (h : s.ps.wf = true) (k : Nat) : (s.markPartial k).ps.wf = true :=
  Store.wf_setSlot (x := { s.slot k with state := .partly }) (Store.wf_slot h k) h

/-- A change of the busy state is in its form when what it will write is. -/
theorem Store.wf_busy {p q : Store} (hslots : q.slots = p.slots) (hcount : q.protectCount ≤ 8)
    (hsave : ∀ k img, q.busy = .saving k img → img.wf = true) (hprot : ∀ c f, q.busy = .protecting c f → c ≤ 8)
    (h : p.wf = true) : q.wf = true := by
  rw [Store.wf_iff] at h ⊢
  obtain ⟨hlen, himg, -⟩ := h
  exact ⟨hslots ▸ hlen, hslots ▸ himg, hcount, hsave, hprot⟩

theorem Store.protectCount_le {p : Store} (h : p.wf = true) : p.protectCount ≤ 8 := ((Store.wf_iff p).mp h).2.2.1

/-! ### Changes of an axis that no condition sees -/

theorem QuietAxis.refl (a : AxisRec) : QuietAxis a a := ⟨rfl, rfl, ⟨rfl, rfl, rfl⟩, id⟩

theorem QuietAxis.set {x : Five AxisRec} {k : Axis} {a : AxisRec} (h : QuietAxis (x.get k) a) (j : Axis) :
    QuietAxis (x.get j) ((x.set k a).get j) := by
  rw [Five.get_set]
  split
  · subst j; exact h
  · exact .refl _

/-- DEMAND's rate is clamped to the active Rmax (R172). -/
theorem QuietAxis.demand (rates : Five (Option Half)) (k : Axis) (a : AxisRec) : QuietAxis a (demandAxis rates k a) := by
  unfold demandAxis
  split
  · next r hr =>
    refine ⟨rfl, rfl, ⟨rfl, rfl, rfl⟩, fun h => ?_⟩
    obtain ⟨hactive, hstaged, hi, hu, heff, -⟩ := h
    refine ⟨hactive, hstaged, hi, hu, heff, ?_⟩
    have hmax := (Tuning.bounds_of_ok hactive).rmax
    unfold demandedRate at hr
    split at hr
    · next q _ =>
      split at hr
      · obtain rfl := Option.some.inj hr
        have hclamp := natAbs_clampSym_le q.toInt a.active.rmax
        rw [toInt_half16 (by omega)]
        exact hclamp
      · cases hr
    · cases hr
  · exact .refl a

/-- TUNE writes the staged copy with a record that passes every check (R33). -/
theorem QuietAxis.tune {a : AxisRec} {k : Axis} {pairs : List TunePair} (hp : pairs.all (pairOk k) = true)
    (hc : (trialRecord a.staged pairs).crossOk = true) : QuietAxis a { a with staged := trialRecord a.staged pairs } := by
  refine ⟨rfl, rfl, ⟨rfl, rfl, rfl⟩, fun ⟨hactive, hstaged, hrest⟩ => ⟨hactive, ?_, hrest⟩⟩
  exact (Tuning.ok_iff _).mpr ⟨Tuning.fieldsOk_trial ((Tuning.ok_iff _).mp hstaged).1 hp, hc⟩

theorem QuietAxis.apply (a : AxisRec) (b : Bool) : QuietAxis a (if b then { a with swapPending := true } else a) := by
  split
  · exact ⟨rfl, rfl, ⟨rfl, rfl, rfl⟩, id⟩
  · exact .refl a

/-! ### Tables keep their sizes -/

theorem length_tableAfter {t : List Selector} {f : SetupFields} (h : t.length = 8) : (tableAfter t f).length = 8 := by
  simp [tableAfter, h, SetupFields.selectors]

theorem length_tableWith (t : List Selector) (ps : List CuePair) : (tableWith t ps).length = t.length := by
  unfold tableWith
  induction ps generalizing t with
  | nil => rfl
  | cons p ps ih => rw [List.foldl_cons, ih, List.length_set]

theorem length_writtenSlots (ws : List Waypoint) (start : Nat) (rs : List WptRecord) :
    (writtenSlots ws start rs).length = ws.length := by
  unfold writtenSlots
  generalize rs.zipIdx = ps
  induction ps generalizing ws with
  | nil => rfl
  | cons p ps ih => rw [List.foldl_cons, ih, List.length_set]

/-! ### The store keeps its form -/

theorem Store.wf_saving {p : Store} {k : Nat} {img : Image} {n : Nat} (h : p.wf = true) (hi : img.wf = true) :
    ({ p with busy := .saving k img, busyElapsed := n } : Store).wf = true :=
  Store.wf_busy (p := p) rfl (Store.protectCount_le (p := p) h) (fun _ _ he => by cases he; exact hi) (fun _ _ he => by cases he) h

theorem Store.wf_erasing {p : Store} {k n : Nat} (h : p.wf = true) :
    ({ p with busy := .erasing k, busyElapsed := n } : Store).wf = true :=
  Store.wf_busy (p := p) rfl (Store.protectCount_le (p := p) h) (fun _ _ he => by cases he) (fun _ _ he => by cases he) h

theorem Store.wf_protecting {p : Store} {c n : Nat} {f : Bool} (h : p.wf = true) (hc : c ≤ 8) :
    ({ p with busy := .protecting c f, busyElapsed := n } : Store).wf = true :=
  Store.wf_busy (p := p) rfl (Store.protectCount_le (p := p) h) (fun _ _ he => by cases he) (fun _ _ he => by cases he; exact hc) h

theorem Store.wf_idle {p : Store} {n : Nat} {l : Bool} (h : p.wf = true) :
    ({ p with busy := .idle, busyElapsed := n, latch := l } : Store).wf = true :=
  Store.wf_busy (p := p) rfl (Store.protectCount_le (p := p) h) nofun nofun h

/-- The latch, the parity registers and the timer are no part of the form. -/
theorem Store.wf_untouched {p : Store} {l f : Bool} {n : Nat} {b : Option (Nat × Nat)} (h : p.wf = true) :
    ({ p with latch := l, parityFlag := f, busyElapsed := n, lastBad := b } : Store).wf = true := h

theorem count_le_of_protectCheck {s : State} {c f : Byte} (h : protectCheck s c f = none) : c.toNat ≤ 8 := by
  unfold protectCheck at h
  split at h
  · cases h
  · omega

namespace Upheld

variable {Q P R : State → Prop} (u : Upheld Q P R) {s : State}
include u

/-! ### Lines and records -/

theorem settleNow (h : Q s) : P (s.settle []) := u.settle [] (Nat.zero_le _) h

theorem feedCue (sel : Selector) (h : Q s) : Q (s.feedCue sel) := u.changeCues _ h

theorem offerUnasked (f : Frame) (h : P s) : P (s.offerUnasked f) := by
  unfold State.offerUnasked
  split
  · next hfree =>
    refine u.link ⟨rfl, id, fun _ => ?_⟩ h
    simp only [State.txFree, decide_eq_true_eq] at hfree
    simpa using hfree
  · exact u.link ⟨rfl, id, id⟩ h

theorem setSen (v : SenUnit) (p : InertialPort) (hp : p.fresh = (s.si.sen.get v).fresh) (h : P s) : P (s.setSen v p) :=
  u.ports (.setSen hp) h

theorem setEnc (k : Axis) (p : EncoderPort) (hp : p.fresh = (s.si.enc.get k).fresh) (h : P s) : P (s.setEnc k p) :=
  u.ports (.setEnc hp) h

theorem makeStale (p : StalePort) (h : Q s) : Q (s.makeStale p) := by
  cases p <;> exact u.portsWithin _ h

theorem expireStale (p : StalePort) (h : P s) : P (s.expireStale p) := by
  unfold State.expireStale
  split
  · exact u.settleNow (u.makeStale p (u.within h))
  · exact h

theorem senBytesIn (v : SenUnit) (bs : List Byte) (h : P s) : P (s.senBytesIn v bs) := by
  unfold State.senBytesIn
  split
  · exact h
  · exact keeps_foldl (fun _ _ ht => u.settleNow (u.portsWithin _ (u.within ht))) _ _ (u.setSen v _ rfl h)

theorem encBytesIn (k : Axis) (bs : List Byte) (h : P s) : P (s.encBytesIn k bs) := by
  unfold State.encBytesIn
  split
  · exact h
  · exact keeps_foldl (fun _ _ ht => u.settleNow (u.portsWithin _ (u.within ht))) _ _ (u.setEnc k _ rfl h)

theorem takeReport (k : Axis) (r : List Byte) (h : P s) : P (s.takeReport k r) := by
  unfold State.takeReport
  split
  · exact u.settle _ (by split <;> simp) (u.within (u.keepReport k r h))
  · exact h

theorem drvBytesIn (k : Axis) (bs : List Byte) (h : P s) : P (s.drvBytesIn k bs) :=
  keeps_foldl (fun _ r ht => u.takeReport k r ht) _ _ (u.linkHeld k _ h)

theorem discardPartial (port : RecordPort) (h : P s) : P (s.discardPartial port) := by
  unfold State.discardPartial
  cases port with
  | sen v => dsimp only; split; exacts [h, u.setSen v _ rfl h]
  | enc k => dsimp only; split; exacts [h, u.setEnc k _ rfl h]
  | drv k => exact u.linkHeld k [] h

theorem silenceRunsOut (h : P s) : P s.silenceRunsOut := by
  unfold State.silenceRunsOut
  split
  · exact u.settleNow (u.expireSilence (u.within h))
  · exact h

theorem takeEdge (line : TrigLine) (high : Bool) (h : P s) : P (s.takeEdge line high) := by
  unfold State.takeEdge
  dsimp only
  split
  · exact u.settleNow (u.feedCue _ (u.within (u.trig line _ h)))
  · exact u.trig line _ h

theorem changeInput (line : InputLine) (high : Bool) (h : P s) : P (s.changeInput line high) := by
  cases line with
  | protN => exact u.prot high h
  | trig l =>
    show P (s.changeLine l high)
    unfold State.changeLine
    dsimp only
    split
    · exact u.trig l _ h
    · exact u.takeEdge l high (u.trig l _ h)

theorem expireHoldOff (line : TrigLine) (h : P s) : P (s.expireHoldOff line) := by
  unfold State.expireHoldOff
  dsimp only
  split
  · split
    · exact u.trig line _ h
    · exact u.takeEdge line _ (u.trig line _ h)
  · exact h

/-! ### Loop frames -/

theorem handOver (k : Axis) (p : Passed) (hp : p.rose.length ≤ 26) (h : Q s) : P (s.handOver k p) := by
  have hmark : Q (if p.marked = true then s.feedCue (.mark k) else s) := by
    split
    · exact u.feedCue _ h
    · exact h
  have hdue : (p.rose.map Due.condition ++ if p.missed then [Due.raised (.driveFault k) 2] else []).length ≤ 27 := by
    rw [List.length_append, List.length_map]
    split <;> simp <;> omega
  unfold State.handOver
  dsimp only
  split
  · exact u.settle _ hdue hmark
  · exact u.settleNow (u.feedCue _ (u.within (u.settleNow (u.reportSegment _ _ _ (u.within (u.settle _ hdue hmark))))))

theorem compute (k : Axis) (n : Nat) (h : P s) : P (s.compute k n) :=
  u.handOver k _ (length_rose_le s k n) (u.computeAxis k n (u.within h))

theorem frameTask (steps : List ReportStep) (acc : List Byte) (t : FrameTask) (h : P s) : P (s.frameTask steps acc t).1 := by
  cases t with
  | compute k n => exact u.compute k n h
  | count => exact u.settleNow (u.countFrame (u.within h))
  | report =>
    cases steps with
    | nil => exact h
    | cons r rest => cases r <;> first | exact h | exact u.offerUnasked _ h

theorem runTasks (fuel : Nat) (ts : List FrameTask) (steps : List ReportStep) (acc : List Byte) (h : P s) :
    P (runTasks fuel ts steps acc s) := by
  induction fuel generalizing ts steps acc s with
  | zero => exact h
  | succ n ih =>
    cases ts with
    | nil => exact h
    | cons t ts => exact ih _ _ _ (u.frameTask _ _ _ (u.choose _ h))

theorem takeFrame (h : P s) : P s.takeFrame := u.runTasks _ _ _ _ (u.beginFrame h)

theorem timerFrame (h : P s) : P s.timerFrame := by
  unfold State.timerFrame
  split
  · exact u.restartFrameTimer (u.takeFrame h)
  · exact h

/-! ### Requests -/

theorem rejudgeStale (v : SenUnit) (h : Q s) : Q (s.rejudgeStale v) := by
  refine keeps_foldl (fun t p ht => ?_) _ _ h
  split
  · exact u.makeStale p ht
  · exact ht

theorem writeSetup (x : Setup) (w : SetupWritten) (h : Q s) : Q (s.writeSetup x w) := by
  have hsilence (t : State) (ht : Q t) : Q (if w.silence = true then t.rejudgeSilence else t) := by
    unfold State.rejudgeSilence
    split_ifs
    exacts [u.expireSilence ht, ht, ht]
  have hstale (t : State) (b : Bool) (v : SenUnit) (ht : Q t) : Q (if b = true then t.rejudgeStale v else t) := by
    split
    exacts [u.rejudgeStale v ht, ht]
  exact hstale _ _ _ (hstale _ _ _ (hstale _ _ _ (hsilence _ (u.setup x h))))

theorem applyImage (img : Image) (h : P s) : P (s.applyImage img) :=
  u.settleNow (u.writeSetup _ _ (u.cueTable (fun _ => by simp [loadedTable])
    (u.configure _ (u.loadWaypoints img (u.loadTuning img (u.within h))))))

theorem loadSlot (k : Nat) (h : P s) : P (s.loadSlot k).1 := by
  have hparity (a b : Nat) : P (s.reportParity a b) :=
    u.settle _ (by simp) (u.within (u.store Store.wf_untouched h))
  unfold State.loadSlot
  dsimp only
  split
  · exact u.applyImage _ h
  · split
    · exact hparity _ _
    · exact u.applyImage _ (hparity _ _)

/-- A request's rule upholds the invariant (R166 step 4). -/
theorem serveRule (r : Request) (h : P s) : P (serveRule s r).state := by
  have hQ := u.within h
  have hstore {p : Store} (hp : s.ps.wf = true → p.wf = true) : P { s with ps := p } := u.store hp h
  cases r <;> simp only [Machine.serveRule]
  case ident o => unfold serveIdent; dsimp only; split; exacts [u.link ⟨rfl, id, id⟩ h, h]
  case restart => unfold serveRestart; split <;> exact h
  case halt => exact u.halt h
  case run => exact u.resume h
  case step => unfold serveStep; split; exacts [u.takeFrame h, h]
  case setup f =>
    unfold serveSetup; split
    · exact u.settleNow (u.writeSetup _ _ (u.cueTable length_tableAfter hQ))
    · exact h
  case state m => unfold serveState; split <;> exact h
  case mode m t d =>
    unfold serveMode
    split
    · exact h
    · next t d _ =>
      cases t <;> dsimp only <;> split
      all_goals first | exact h | exact u.settleNow (u.applyMode _ _ _ hQ)
  case demand m rs =>
    unfold serveDemand; split
    · exact u.axes (fun k => by rw [Five.get_mapAxis]; exact .demand _ k _) h
    · exact h
  case tune a ps =>
    unfold serveTune
    split
    · exact h
    · next k _ =>
      dsimp only
      split
      · next hok => exact u.axes (QuietAxis.set (.tune hok.2.2.1 hok.2.2.2)) h
      · exact h
  case tuneRead a c => unfold serveTuneRead; split <;> exact h
  case apply m =>
    unfold serveApply; split
    · exact u.axes (fun k => by rw [Five.get_mapAxis]; exact .apply _ _) h
    · exact h
  case queueAdd es =>
    unfold serveQueueAdd
    split
    · exact h
    · split_ifs with hcount hfull
      · exact h
      · exact h
      · rw [not_or, List.isEmpty_iff] at hcount
        exact u.settleNow (u.enqueue hcount.1 (by omega) hQ)
  case queueCtrl a =>
    unfold serveQueueCtrl
    split
    · exact u.settleNow (u.run hQ)
    · exact u.pause h
    · exact u.flush h
    · exact h
  case queueRead => exact h
  case wptWrite a rs =>
    unfold serveWptWrite
    split_ifs
    · exact h
    · exact h
    · exact u.pages s.ms.locks (length_writtenSlots _ _ _) h
  case wptRead a n => unfold serveWptRead; split <;> exact h
  case wptLock f => unfold serveWptLock; split; exacts [h, u.pages (ws := s.ms.waypoints) _ rfl h]
  case cue c e ps =>
    unfold serveCue; split
    · exact u.settleNow (u.changeCues _ (u.cueTable (fun ht => by rw [length_tableWith]; exact ht) hQ))
    · exact h
  case sweep a lo hi w q =>
    unfold serveSweep
    split
    · exact h
    · split_ifs with hrange
      · exact h
      · exact h
      · exact h
      · exact u.startSweep _ _ _ _ _ (by omega) (by omega) h
  case sweepStop =>
    unfold serveSweepStop; split
    · next hrun => exact u.abortSweep hrun h
    · exact h
  case sweepRead => exact h
  case alertRead o => unfold serveAlertRead; dsimp only; split; exacts [u.clearSeen h, h]
  case alertCfg rs =>
    unfold serveAlertCfg
    split
    · exact h
    · split
      · exact h
      · exact u.settleNow (u.configure _ hQ)
  case resolve l =>
    unfold serveResolve
    split
    · split
      · exact u.settleNow (u.endService1 hQ)
      · exact h
    · split
      · next hserv => exact u.resolve2 hserv h
      · exact h
    · exact h
  case alertTest m p =>
    unfold serveAlertTest; split
    · exact u.settle _ (by simp) (u.testMask _ hQ)
    · exact h
  case alertCancel m => unfold serveAlertCancel; split; exacts [u.cancel _ h, h]
  case storeArm o =>
    unfold serveStoreArm
    split_ifs
    · exact h
    · exact h
    · exact hstore Store.wf_untouched
  case storeSave k =>
    unfold serveStoreSave; split
    · exact h
    · exact u.store (s := s) (p := ((s.markPartial k.toNat).beginBusy _).ps)
        (fun hw => Store.wf_saving (Store.wf_markPartial hw _) (capturedImage_wf s)) h
  case storeErase k =>
    unfold serveStoreErase; split
    · exact h
    · exact u.store (s := s) (p := ((s.markPartial k.toNat).beginBusy _).ps) (fun hw => Store.wf_erasing (Store.wf_markPartial hw _)) h
  case storeLoad k =>
    unfold serveStoreLoad
    split_ifs
    · exact h
    · exact h
    · exact h
    · dsimp only; exact u.loadSlot _ h
  case storeStatus o => unfold serveStoreStatus; dsimp only; split; exacts [hstore Store.wf_untouched, h]
  case storeProtect c f =>
    unfold serveStoreProtect; split
    · exact h
    · next hok => exact hstore (fun hw => Store.wf_protecting hw (count_le_of_protectCheck hok))
  case park => unfold servePark; split; exacts [h, u.park h]
  case unpark =>
    unfold serveUnpark; split
    · next hparked => exact u.settleNow (u.unpark hparked h)
    · exact h
  case reportPlan k i => unfold serveReportPlan; split; exacts [u.link ⟨rfl, id, id⟩ h, h]

theorem serveFrame (f : Frame) (h : P s) : P (serveFrame s f).state := by
  unfold Machine.serveFrame
  split
  · exact h
  · exact h
  · exact h
  · unfold serve; split; exacts [h, u.serveRule _ h]

/-! ### The Console Link -/

theorem pushTx (f : Frame) (hfree : s.txFree = true) (h : P s) : P (s.pushTx f) := by
  refine u.link ⟨rfl, id, fun _ => ?_⟩ h
  simp only [State.txFree, decide_eq_true_eq] at hfree
  simpa using hfree

theorem setDispatcher (d : Dispatcher) (h : P s) : P (s.setDispatcher d) := u.link ⟨rfl, id, id⟩ h

theorem answer (f : Frame) (h : P s) : P (s.answer f) := by
  have hserved := u.serveFrame f h
  unfold State.answer State.deliverRestart State.deliver
  dsimp only
  split
  · split
    · next hfree => exact u.pushTx _ hfree (u.setDispatcher _ hserved)
    · exact u.setDispatcher _ hserved
  · split
    · next hfree => exact u.pushTx _ hfree hserved
    · exact u.setDispatcher _ hserved

theorem dispatchLoop (n : Nat) (h : P s) : P (dispatchLoop n s) := by
  induction n generalizing s with
  | zero => exact h
  | succ n ih =>
    unfold Machine.dispatchLoop
    split
    · next f rest _ hq =>
      refine ih (u.answer f (u.link ⟨rfl, fun hlen => ?_, id⟩ h))
      rw [hq] at hlen
      exact Nat.le_of_succ_le hlen
    · exact h

theorem offerRequest (f : Frame) (h : P s) : P (s.offerRequest f) := by
  unfold State.offerRequest
  split
  · exact u.link ⟨rfl, id, id⟩ h
  · next hroom =>
    simp only [Bool.or_eq_true, decide_eq_true_eq, not_or] at hroom
    exact u.link ⟨rfl, fun _ => by simp; omega, id⟩ (u.link ⟨rfl, id, id⟩ h : P s.countAdmitted)

theorem receive (f : Frame) (h : P s) : P (s.receive f) :=
  u.dispatchLoop 5 (u.offerRequest f (u.settleNow (u.restartSilence (u.within h))))

theorem takeByte (b : Byte) (h : P s) : P (s.takeByte b).1 := by
  have hrx (r : RxState) : P (s.setRx r) := u.link ⟨rfl, id, id⟩ h
  unfold State.takeByte
  split
  · split; exacts [hrx _, h]
  · dsimp only
    split_ifs
    · exact hrx _
    · exact u.link ⟨rfl, id, id⟩ (hrx .hunt)
    · exact hrx _
    · exact u.receive _ (hrx .hunt)
    · exact u.link ⟨rfl, id, id⟩ (hrx .hunt)

theorem feedLoop (fuel : Nat) (bs : List Byte) (h : P s) : P (feedLoop fuel bs s) := by
  induction fuel generalizing bs s with
  | zero => exact h
  | succ n ih =>
    cases bs with
    | nil => exact h
    | cons b bs => exact ih _ (u.takeByte b h)

theorem feedLink (bs : List Byte) (h : P s) : P (s.feedLink bs) := u.feedLoop _ _ h

theorem linkGap (h : P s) : P s.linkGap := by
  unfold State.linkGap
  split
  · exact h
  · exact u.link ⟨rfl, id, id⟩ (u.link ⟨rfl, id, id⟩ h : P (s.setRx .hunt))

theorem feedRequest (tag : Byte) (r : Request) (h : P s) : P (s.feedRequest tag r) := u.feedLink _ h

theorem frameSent (h : P s) : R s.frameSent := by
  unfold State.frameSent
  split
  · exact u.final h
  · next f rest hq =>
    split
    · exact u.reset _ _ h
    · have hfreed : s.cl.txQueue.length ≤ 4 → rest.length ≤ 3 := fun hlen => by rw [hq] at hlen; exact Nat.le_of_succ_le_succ hlen
      have hpush (d : Dispatcher) (reply : Frame) : P { s with cl := { s.cl with txQueue := rest ++ [reply], dispatcher := d } } :=
        u.link ⟨rfl, id, fun hlen => by have := hfreed hlen; simp; omega⟩ h
      have hpop : P { s with cl := { s.cl with txQueue := rest } } :=
        u.link ⟨rfl, id, fun hlen => Nat.le_succ_of_le (hfreed hlen)⟩ h
      unfold State.placeFreed
      split
      · exact u.final (u.dispatchLoop 5 hpop)
      · exact u.final (u.dispatchLoop 5 (hpush .ready _))
      · exact u.final (hpush (.restarting none) _)
      · exact u.final hpop

/-! ### The store's completions -/

theorem noticeDone (op : DoneOp) (a b c : Byte) (h : P s) : P (s.noticeDone op a b c) := u.offerUnasked _ h

theorem completeSave (h : P s) : P s.completeSave := by
  unfold State.completeSave
  split
  · next k img hbusy =>
    refine u.noticeDone _ _ _ _ (u.store (s := s) (p := ((s.setSlot k ⟨.valid, img⟩).endBusy).ps) (fun hw => ?_) h)
    exact Store.wf_idle (Store.wf_setSlot (((Store.wf_iff _).mp hw).2.2.2.1 k img hbusy) hw)
  · exact h

theorem completeErase (h : P s) : P s.completeErase := by
  unfold State.completeErase
  split
  · next k hbusy =>
    refine u.noticeDone _ _ _ _ (u.store (s := s) (p := ((s.setSlot k ⟨.empty, []⟩).endBusy).ps) (fun hw => ?_) h)
    exact Store.wf_idle (Store.wf_setSlot Image.wf_nil hw)
  · exact h

theorem completeProtect (h : P s) : P s.completeProtect := by
  unfold State.completeProtect
  split
  · next c f hbusy =>
    refine u.noticeDone _ _ _ _ (u.store (s := s)
      (p := { s.ps with protectCount := c, freeze := f, busy := .idle, busyElapsed := 0, latch := false }) (fun hw => ?_) h)
    exact Store.wf_busy (p := s.ps) rfl (((Store.wf_iff _).mp hw).2.2.2.2 c f hbusy) nofun nofun hw
  · exact h

/-! ### Commands and steps -/

/-- What the parts of an event uphold, every command upholds. -/
theorem exec {i : Instr} {t : State} (h : P s) (ht : exec i s = .next t) : R t := by
  have hrequest (tag : Byte) (r : Request) : R (s.feedRequest tag r) := u.final (u.feedRequest tag r h)
  have hprot (b : Bool) (tag : Byte) (r : Request) : R ((s.setProt b).feedRequest tag r) :=
    u.final (u.feedRequest tag r (u.prot b h))
  cases i <;> obtain rfl := Host.Outcome.next.inj ht
  case powerOnReset pins => exact u.reset _ _ h
  case pinReset pins => exact u.reset _ _ h
  case inertialSampleRecord v bs => exact u.final (u.senBytesIn v bs h)
  case encoderRecord k bs => exact u.final (u.encBytesIn k bs h)
  case partialRecordDiscard port => exact u.final (u.discardPartial port h)
  case stalenessExpiry port => exact u.final (u.expireStale port h)
  case loopFrame => exact u.final (u.timerFrame h)
  case driveWordSent k => exact u.final (u.wordSent k h)
  case driverReport k bs => exact u.final (u.drvBytesIn k bs h)
  case killAssertion => exact u.final (u.assertKill h)
  case killRelease => exact u.final (u.releaseKill h)
  case triggerLineChange line high => exact u.final (u.changeInput line high h)
  case holdOffExpiry line => exact u.final (u.expireHoldOff line h)
  case goodFrame kind tag payload => exact u.final (u.feedLink _ h)
  case lengthError hi lo => exact u.final (u.feedLink _ h)
  case crcError kind tag payload hi lo => exact u.final (u.feedLink _ h)
  case gap bs => exact u.final (u.linkGap (u.feedLink _ h))
  case consoleFrameSent => exact u.frameSent h
  case silenceExpiry => exact u.final (u.silenceRunsOut h)
  case unknownKind kind tag payload => exact u.final (u.feedLink _ h)
  case saveCompletion => exact u.final (u.completeSave h)
  case eraseCompletion => exact u.final (u.completeErase h)
  case protectCompletion => exact u.final (u.completeProtect h)
  case unparkSettlingEnd => exact u.settlingEnd h
  case storeProtect tag c f b => exact hprot b tag _
  case storeStatus tag o b => exact hprot b tag _
  all_goals exact hrequest _ _

theorem idle {t : State} (h : P s) (ht : s.idle = .next t) : R t := by
  rcases idle_cases s with ⟨-, he⟩ | ⟨c, -, he⟩
  · obtain rfl := Host.Outcome.next.inj (he ▸ ht)
    exact u.final (u.tick h)
  · exact u.exec (u.choose _ h) (he ▸ ht)

/-- What the parts of an event uphold, every step upholds, if taking a command off the queue does. -/
theorem step {t : State} (take : ∀ c rest, s.pending = c :: rest → P { s with pending := rest }) (h : P s)
    (ht : step s = .next t) : R t := by
  unfold Machine.step at ht
  split at ht
  · exact u.idle h ht
  · next c rest hq => exact u.exec (take c rest hq) ht

end Upheld

end Sys2Proof.Machine
end

section
/-! PROOFS. One computation (R43) in its two halves: the state its own work starts from (kill settled, launch installed or dropped), and
that work from the swap on. What each half leaves alone. -/

namespace Sys2Proof.Machine

/-! ### The two halves -/

/-- The kill settled, and the pending launch installed or dropped (R132, R31, R133). -/
def State.launched (s : State) (k : Axis) : State :=
  let u := s.settleKill k
  if heldByPause u k then u.discardLaunch k else u.installLaunch k

/-- The mark test of a computation (R102); `s` is the state judged after the swap. -/
def marks (s : State) (k : Axis) (n : Nat) : Bool :=
  (s.axis k).lastEncoder.isSome && markCrossed (s.axis k).active (s.axis k).j ((s.estimate k n).axis k).j

/-- Step 5 on the state that the estimation leaves (R43). -/
def estimatedWork (s : State) (k : Axis) (n : Nat) (held : Bool) : ModeWork :=
  modeWork (s.estimate k n) k (gyroTerm (s.estimate k n) k) n held

/-- The computation counts for the sweep on its axis (R110). -/
def counts (s : State) (k : Axis) (n : Nat) (held : Bool) : Bool :=
  sweeping (s.estimate k n) k && decide ((s.axis k).mode = .hold) && ((s.estimate k n).si.sen.get (feedbackUnit k)).fresh && !held

/-- The axis written by the estimation and step 5. -/
def State.worked (s : State) (k : Axis) (n : Nat) (held : Bool) : State :=
  let m := estimatedWork s k n held
  (s.estimate k n).setAxis k
    { m.axis with lastMark := if marks s k n then some (s.estimate k n).le.frameNo else m.axis.lastMark }

/-- The word handed, and the sweep counted. -/
def State.finished (s : State) (k : Axis) (n : Nat) (held : Bool) : State :=
  let t := ((s.worked k n held).handCommand k (estimatedWork s k n held).command).1
  if counts s k n held then t.countSweep (gyroTerm (s.estimate k n) k) else t

/-- The computation's work from the swap on. -/
def State.swapAndWork (s : State) (k : Axis) (n : Nat) (held : Bool) : State × Passed :=
  let t := (s.swapCheck k).judge.1
  (t.finished k n held,
   ⟨(s.swapCheck k).judge.2, ((t.worked k n held).handCommand k (estimatedWork t k n held).command).2, marks t k n,
    (estimatedWork t k n held).ended⟩)

theorem computeAxis_eq (s : State) (k : Axis) (n : Nat) :
    s.computeAxis k n = (s.launched k).swapAndWork k n (heldByPause (s.settleKill k) k) := rfl

/-! ### What they leave alone -/

theorem settleKill_same (s : State) (k : Axis) : SameOutside s (s.settleKill k) := by
  have hact : SameOutside s (s.settleAwaiting k) := by
    unfold State.settleAwaiting
    split
    · exact killAct_same s k
    · exact .rfl
  unfold State.settleKill
  dsimp only
  split
  · exact hact
  · exact hact.trans (setAxis_same _ _ _)

theorem discardLaunch_same (s : State) (k : Axis) : SameOutside s (s.discardLaunch k) := by
  unfold State.discardLaunch
  split
  · exact .rfl
  · exact (setAxis_same _ _ _).trans (reportSegment_same _ _ _ _)

theorem installLaunch_same (s : State) (k : Axis) : SameOutside s (s.installLaunch k) := by
  unfold State.installLaunch
  split
  · exact .rfl
  · split
    · dsimp only
      split
      · exact (setAxis_same _ _ _).trans (reportSegment_same _ _ _ _)
      · exact setAxis_same _ _ _
    · exact (leaveHold_same _ _).trans (setAxis_same _ _ _)
    · exact setAxis_same _ _ _
    · exact setAxis_same _ _ _
    · exact discardLaunch_same _ _
    · exact discardLaunch_same _ _
    · exact discardLaunch_same _ _

theorem launched_same (s : State) (k : Axis) : SameOutside s (s.launched k) := by
  unfold State.launched
  dsimp only
  split
  · exact (settleKill_same s k).trans (discardLaunch_same _ k)
  · exact (settleKill_same s k).trans (installLaunch_same _ k)

theorem swapCheck_same (s : State) (k : Axis) : SameOutside s (s.swapCheck k) := by
  unfold State.swapCheck
  dsimp only
  split
  · exact setAxis_same _ _ _
  · exact .rfl

/-! The estimation writes the axis record and clears the new-position flag; nothing else. -/

theorem jointStep_eq (s : State) (k : Axis) :
    s.jointStep k =
      { s with
        si := { s.si with enc := s.si.enc.set k { s.si.enc.get k with newPos := false } }
        axes := s.axes.set k ((s.jointStep k).axis k) } := by
  have hself {α : Type} (x : Five α) : x.set k (x.get k) = x := by cases k <;> rfl
  unfold State.jointStep
  dsimp only
  split
  · rw [State.axis_setAxis_same]; rfl
  · next h =>
    have he : ({ s.si.enc.get k with newPos := false } : EncoderPort) = s.si.enc.get k := by
      rw [Bool.not_eq_true] at h
      rw [← h]
    rw [he, hself, State.axis, hself]

@[simp] theorem jointStep_le (s : State) (k : Axis) : (s.jointStep k).le = s.le := by rw [jointStep_eq]
@[simp] theorem jointStep_ms (s : State) (k : Axis) : (s.jointStep k).ms = s.ms := by rw [jointStep_eq]
@[simp] theorem jointStep_sw (s : State) (k : Axis) : (s.jointStep k).sw = s.sw := by rw [jointStep_eq]
@[simp] theorem jointStep_dl (s : State) (k : Axis) : (s.jointStep k).dl = s.dl := by rw [jointStep_eq]
@[simp] theorem jointStep_alc (s : State) (k : Axis) : (s.jointStep k).alc = s.alc := by rw [jointStep_eq]
@[simp] theorem jointStep_cl (s : State) (k : Axis) : (s.jointStep k).cl = s.cl := by rw [jointStep_eq]
@[simp] theorem jointStep_ps (s : State) (k : Axis) : (s.jointStep k).ps = s.ps := by rw [jointStep_eq]
@[simp] theorem jointStep_killAsserted (s : State) (k : Axis) : (s.jointStep k).killAsserted = s.killAsserted := by rw [jointStep_eq]
@[simp] theorem jointStep_protHigh (s : State) (k : Axis) : (s.jointStep k).protHigh = s.protHigh := by rw [jointStep_eq]
@[simp] theorem jointStep_sen (s : State) (k : Axis) : (s.jointStep k).si.sen = s.si.sen := by rw [jointStep_eq]
@[simp] theorem jointStep_enc (s : State) (k : Axis) :
    (s.jointStep k).si.enc = s.si.enc.set k { s.si.enc.get k with newPos := false } := by rw [jointStep_eq]

theorem jointStep_axis_other (s : State) {k j : Axis} (h : j ≠ k) : (s.jointStep k).axis j = s.axis j := by
  rw [jointStep_eq]; exact Five.get_set_other _ _ h

@[simp] theorem estimate_le (s : State) (k : Axis) (n : Nat) : (s.estimate k n).le = s.le := jointStep_le s k
@[simp] theorem estimate_ms (s : State) (k : Axis) (n : Nat) : (s.estimate k n).ms = s.ms := jointStep_ms s k
@[simp] theorem estimate_sw (s : State) (k : Axis) (n : Nat) : (s.estimate k n).sw = s.sw := jointStep_sw s k
@[simp] theorem estimate_dl (s : State) (k : Axis) (n : Nat) : (s.estimate k n).dl = s.dl := jointStep_dl s k
@[simp] theorem estimate_alc (s : State) (k : Axis) (n : Nat) : (s.estimate k n).alc = s.alc := jointStep_alc s k
@[simp] theorem estimate_cl (s : State) (k : Axis) (n : Nat) : (s.estimate k n).cl = s.cl := jointStep_cl s k
@[simp] theorem estimate_ps (s : State) (k : Axis) (n : Nat) : (s.estimate k n).ps = s.ps := jointStep_ps s k
@[simp] theorem estimate_killAsserted (s : State) (k : Axis) (n : Nat) : (s.estimate k n).killAsserted = s.killAsserted :=
  jointStep_killAsserted s k
@[simp] theorem estimate_protHigh (s : State) (k : Axis) (n : Nat) : (s.estimate k n).protHigh = s.protHigh := jointStep_protHigh s k
@[simp] theorem estimate_si (s : State) (k : Axis) (n : Nat) : (s.estimate k n).si = (s.jointStep k).si := rfl

theorem estimate_axis_other (s : State) {k j : Axis} (n : Nat) (h : j ≠ k) : (s.estimate k n).axis j = s.axis j := by
  unfold State.estimate
  rw [State.axis_setAxis, if_neg h, jointStep_axis_other s h]

@[simp] theorem worked_le (s : State) (k : Axis) (n : Nat) (b : Bool) : (s.worked k n b).le = s.le := estimate_le s k n
@[simp] theorem worked_ms (s : State) (k : Axis) (n : Nat) (b : Bool) : (s.worked k n b).ms = s.ms := estimate_ms s k n
@[simp] theorem worked_sw (s : State) (k : Axis) (n : Nat) (b : Bool) : (s.worked k n b).sw = s.sw := estimate_sw s k n
@[simp] theorem worked_dl (s : State) (k : Axis) (n : Nat) (b : Bool) : (s.worked k n b).dl = s.dl := estimate_dl s k n
@[simp] theorem worked_alc (s : State) (k : Axis) (n : Nat) (b : Bool) : (s.worked k n b).alc = s.alc := estimate_alc s k n
@[simp] theorem worked_cl (s : State) (k : Axis) (n : Nat) (b : Bool) : (s.worked k n b).cl = s.cl := estimate_cl s k n
@[simp] theorem worked_ps (s : State) (k : Axis) (n : Nat) (b : Bool) : (s.worked k n b).ps = s.ps := estimate_ps s k n
@[simp] theorem worked_si (s : State) (k : Axis) (n : Nat) (b : Bool) : (s.worked k n b).si = (s.jointStep k).si := rfl
@[simp] theorem worked_killAsserted (s : State) (k : Axis) (n : Nat) (b : Bool) : (s.worked k n b).killAsserted = s.killAsserted :=
  estimate_killAsserted s k n
@[simp] theorem worked_protHigh (s : State) (k : Axis) (n : Nat) (b : Bool) : (s.worked k n b).protHigh = s.protHigh :=
  estimate_protHigh s k n

theorem worked_axis_other (s : State) {k j : Axis} (n : Nat) (b : Bool) (h : j ≠ k) : (s.worked k n b).axis j = s.axis j := by
  unfold State.worked
  rw [State.axis_setAxis, if_neg h, estimate_axis_other s n h]

/-! ### The word handed (R122, R123, R124) -/

/-- The word of a command, with the report request that the link's counters decide. -/
def handedLink (park : ParkState) (limit every : Nat) (l : DriveLink) (c : DriveCommand) (demand : Int) : DriveLink :=
  let q := (l.checkMiss limit).1.countRequest every
  q.1.hand (wordFor park c demand q.2)

theorem handCommand_eq (s : State) (k : Axis) (c : DriveCommand) :
    s.handCommand k c =
      (s.setLink k (handedLink s.le.park s.cl.setup.driverMissLimit (s.axis k).active.reportEvery (s.dl.get k) c
        (s.axis k).uPrev.toInt), ((s.dl.get k).checkMiss s.cl.setup.driverMissLimit).2) := rfl

theorem finished_le (s : State) (k : Axis) (n : Nat) (b : Bool) : (s.finished k n b).le = s.le := by
  unfold State.finished
  dsimp only
  split
  · exact ((countSweep_same _ _).2.1).trans (worked_le s k n b)
  · exact worked_le s k n b

theorem finished_dl (s : State) (k : Axis) (n : Nat) (b : Bool) :
    (s.finished k n b).dl =
      s.dl.set k (handedLink s.le.park s.cl.setup.driverMissLimit ((s.worked k n b).axis k).active.reportEvery (s.dl.get k)
        (estimatedWork s k n b).command ((s.worked k n b).axis k).uPrev.toInt) := by
  have hhand (c : DriveCommand) : ((s.worked k n b).handCommand k c).1.dl = s.dl.set k (handedLink s.le.park
      s.cl.setup.driverMissLimit ((s.worked k n b).axis k).active.reportEvery (s.dl.get k) c
        ((s.worked k n b).axis k).uPrev.toInt) := by
    rw [handCommand_eq]; simp
  unfold State.finished
  dsimp only
  split
  · rw [(countSweep_same _ _).2.2.1, hhand]
  · rw [hhand]

/-- A computation leaves the Loop Engine's own registers alone. -/
theorem computeAxis_le (s : State) (k : Axis) (n : Nat) : (s.computeAxis k n).1.le = s.le := by
  rw [computeAxis_eq]
  have hprep := ((launched_same s k).trans (swapCheck_same _ k)).trans (judge_same _)
  exact (finished_le _ _ _ _).trans hprep.2.1

/-- A computation hands one word, on its own link. -/
theorem computeAxis_dl (s : State) (k : Axis) (n : Nat) :
    ∃ limit every c demand,
      (s.computeAxis k n).1.dl = s.dl.set k (handedLink s.le.park limit every (s.dl.get k) c demand) := by
  rw [computeAxis_eq]
  have hprep := ((launched_same s k).trans (swapCheck_same _ k)).trans (judge_same _)
  obtain ⟨-, hle, hdl, -⟩ := hprep
  have hdone := finished_dl ((s.launched k).swapCheck k).judge.1 k n (heldByPause (s.settleKill k) k)
  rw [hle, hdl] at hdone
  exact ⟨_, _, _, _, hdone⟩

end Sys2Proof.Machine
end

section
/-! PROOFS. Invariants that the settling does not touch: the queue of waiting commands, and the drive links outside RUNNING. -/

namespace Sys2Proof.Machine

/-! ### The queue of commands -/

theorem SameLink.pending {s t : State} (h : SameLink s t) : t.pending = s.pending := h.2.2.2

theorem SameOutside.pending {s t : State} (h : SameOutside s t) : t.pending = s.pending := h.link.pending

theorem killAxes_pending (s : State) : s.killAxes.pending = s.pending := by
  have hone (t : State) (k : Axis) : (t.killAxis k).pending = t.pending := by
    unfold State.killAxis
    dsimp only
    split
    · exact (killAct_same t k).pending
    · split <;> rfl
  exact keeps_foldl (P := fun t => t.pending = s.pending) (fun t k ht => (hone t k).trans ht) allAxes s rfl

theorem assertKill_pending (s : State) : s.assertKill.pending = s.pending := by
  have hhold : s.killHold.pending = s.pending := (feedCue_same (s.setHoldKill true) .kill).pending
  unfold State.assertKill
  dsimp only
  split
  · rfl
  · split
    · rw [(settle_same _ _).pending, killAxes_pending, (settle_same _ _).pending]
      exact ((choose_same _ _).pending).trans hhold
    · rw [(settle_same _ _).pending, killAxes_pending]
      exact ((choose_same _ _).pending).trans hhold

theorem resetWith_pending (s : State) (cause : ResetCause) (pins : Pins) : (s.resetWith cause pins).pending = s.pending := by
  unfold State.resetWith
  dsimp only
  split
  · rfl
  · exact assertKill_pending _

/-- The queue of commands is no command's to change. -/
theorem upheld_pending (q : List Instr) :
    Upheld (fun s => s.pending = q) (fun s => s.pending = q) (fun s => s.pending = q) where
  within h := h
  final h := h
  settle _ _ h := ((settle_same _ _).pending).trans h
  choose _ h := ((choose_same _ _).pending).trans h
  reset _ _ h := (resetWith_pending _ _ _).trans h
  tick h := h
  prot _ h := h
  trig line _ h := by cases line <;> exact h
  assertKill h := (assertKill_pending _).trans h
  releaseKill {s} h := by
    unfold State.releaseKill
    split
    · exact ((settle_same _ _).pending).trans h
    · exact h
  ports _ h := h
  portsWithin _ h := h
  linkHeld _ _ h := h
  keepReport _ _ h := h
  wordSent _ h := h
  beginFrame h := h
  restartFrameTimer h := h
  computeAxis k n h := ((computeAxis_link _ k n).pending).trans h
  reportSegment _ _ _ h := ((reportSegment_same _ _ _ _).pending).trans h
  changeCues _ h := ((changeCues_same _ _).pending).trans h
  countFrame h := ((countFrame_same _).pending).trans h
  link _ h := h
  setup _ h := h
  restartSilence h := h
  expireSilence h := h
  axes _ h := h
  applyMode _ _ _ h := ((applyMode_same _ _ _ _).pending).trans h
  startSweep _ _ _ _ _ _ _ h := h
  abortSweep _ h := ((abortSweep_same _).pending).trans h
  loadTuning _ h := h
  enqueue _ _ h := h
  run h := h
  pause h := h
  flush h := h
  pages _ _ h := h
  loadWaypoints _ h := h
  cueTable _ h := h
  clearSeen h := h
  configure _ h := h
  testMask _ h := h
  cancel _ h := h
  endService1 h := h
  resolve2 _ h := ((resolve2_link _).pending).trans h
  store _ h := h
  park h := ((takePark_link _).pending).trans h
  unpark _ h := h
  settlingEnd {s} h := by
    unfold State.endSettling
    split
    · exact ((noticeDone_same _ _ _ _ _).pending).trans h
    · exact h
  halt {s} h := by unfold State.takeHalt; split <;> exact h
  resume {s} h := by unfold State.takeRun; split <;> exact h

/-- Settles O3: every part of every command leaves the queue of commands as it is. -/
theorem commandsLeaveQueueAlone : Obligations.CommandsLeaveQueueAlone := fun _ _ _ ht => (upheld_pending _).exec rfl ht

/-! ### Drive links (R120, R122) -/

theorem assertKill_park (s : State) : s.assertKill.le.park = s.le.park := by
  have hkill (t : State) : t.killAxes.le = t.le := by
    refine keeps_foldl (P := fun v => v.le = t.le) (fun v k hv => Eq.trans ?_ hv) allAxes t rfl
    unfold State.killAxis
    dsimp only
    split
    · exact (killAct_same v k).2.1
    · split <;> rfl
  have hheld : (s.killHold.choose 2).2.le = s.le := (choose_same _ _).2.1.trans (feedCue_same (s.setHoldKill true) .kill).2.1
  unfold State.assertKill
  dsimp only
  split
  · rfl
  · split
    · rw [(settle_same _ _).2.1, hkill, (settle_same _ _).2.1]; exact congrArg _ hheld
    · rw [(settle_same _ _).2.1, hkill]; exact congrArg _ hheld

theorem resolve2_same (s : State) : SameOutside s s.resolve2 := by
  have hreturn : SameOutside s ((axesOf (returningAxes s)).foldl State.returnAxis s) := by
    refine SameOutside.foldl (fun t k => ?_) _ _
    unfold State.returnAxis
    split
    · exact returnFromSafe_same _ _ _
    · exact .rfl
  have hrefresh (t : State) : SameOutside t t.refreshTruths :=
    (judge_same t).trans (SameOutside.foldl (fun t src => markDue_same t _) _ _)
  have hend (t : State) : SameOutside t (t.endService2.settle []) :=
    SameOutside.trans (t := t.endService2) (.of_cl rfl rfl rfl rfl rfl rfl rfl rfl) (settle_same _ _)
  have hfree (t : State) : SameOutside t ((t.setHoldAlert false).settle []) :=
    SameOutside.trans (t := t.setHoldAlert false) (.of_cl rfl rfl rfl rfl rfl rfl rfl rfl) (settle_same _ _)
  unfold State.resolve2
  dsimp only
  split
  · exact hreturn.trans ((hrefresh _).trans (hend _))
  · exact hreturn.trans ((hrefresh _).trans ((hend _).trans (hfree _)))

/-- A link that has been handed a BRAKE word lets no DRIVE word wait. -/
theorem brakeAll_waiting {s : State} (h : DriveHeldBack s) (k : Axis) {w : DriveWord}
    (hw : (s.brakeAll.dl.get k).waiting = some w) : w.command ≠ .drive := by
  rw [State.brakeAll_dl, Five.get_mapAxis] at hw
  unfold DriveLink.hand at hw
  split at hw
  · next hidle =>
    rw [Option.isNone_iff_eq_none] at hidle
    exact absurd ((h k).1 hidle ▸ hw : none = some w) nofun
  · obtain rfl := Option.some.inj hw
    exact nofun

/-- What `DriveHeldBack` asks of one link. -/
abbrev LinkHeldBack (park : ParkState) (l : DriveLink) : Prop :=
  (l.sending = none → l.waiting = none) ∧ (park ≠ .running → ∀ w, l.waiting = some w → w.command ≠ .drive)

/-- No DRIVE word has started on a link since it was `l`: one on the line was there before, and the last word sent is the same or no
DRIVE word. -/
abbrev NoDriveStarted (l m : DriveLink) : Prop :=
  (∀ w, m.sending = some w → w.command = .drive → l.sending = some w) ∧
    (m.lastWord = l.lastWord ∨ ∃ w, m.lastWord = some w ∧ w.command ≠ .drive)

theorem NoDriveStarted.refl (l : DriveLink) : NoDriveStarted l l := ⟨fun _ hw _ => hw, .inl rfl⟩

theorem NoDriveStarted.trans {l m n : DriveLink} (h : NoDriveStarted l m) (g : NoDriveStarted m n) : NoDriveStarted l n := by
  refine ⟨fun w hw hd => h.1 w (g.1 w hw hd) hd, ?_⟩
  rcases g.2 with he | hne
  · rw [he]; exact h.2
  · exact .inr hne

/-- A word handed to a link keeps both, when it is no DRIVE word outside RUNNING. -/
theorem hand_heldBack {park : ParkState} {l : DriveLink} (h : LinkHeldBack park l) {w : DriveWord}
    (hw : park ≠ .running → w.command ≠ .drive) :
    LinkHeldBack park (l.hand w) ∧ (park ≠ .running → NoDriveStarted l (l.hand w)) := by
  unfold DriveLink.hand
  split
  · next hidle =>
    rw [Option.isNone_iff_eq_none] at hidle
    have hnone := h.1 hidle
    refine ⟨⟨nofun, fun _ v hv => ?_⟩, fun hp => ⟨fun v hv hd => ?_, .inr ⟨w, rfl, hw hp⟩⟩⟩
    · exact absurd (hnone ▸ hv : none = some v) nofun
    · obtain rfl := Option.some.inj hv
      exact absurd hd (hw hp)
  · next hbusy =>
    refine ⟨⟨fun hs => absurd (by simpa using hs) hbusy, fun hp v hv => ?_⟩, fun _ => .refl _⟩
    obtain rfl := Option.some.inj hv
    exact hw hp

/-- The end of a word keeps both: what starts then is the word that waited. -/
theorem wordSent_heldBack {park : ParkState} {l : DriveLink} (h : LinkHeldBack park l) :
    LinkHeldBack park l.wordSent ∧
      (park ≠ .running → NoDriveStarted l l.wordSent ∧ ∀ w, l.wordSent.sending = some w → w.command ≠ .drive) := by
  obtain ⟨hidle, hwait⟩ := h
  unfold DriveLink.wordSent
  split
  · next hs => exact ⟨⟨hidle, hwait⟩, fun _ => ⟨.refl _, fun w hw => by rw [hs] at hw; cases hw⟩⟩
  · next hs hn => exact ⟨⟨fun _ => hn, hwait⟩, fun _ => ⟨⟨nofun, .inl rfl⟩, nofun⟩⟩
  · next w hs hv =>
    have hne (hp : park ≠ .running) : w.command ≠ .drive := hwait hp w hv
    have hsent (hp : park ≠ .running) (v : DriveWord) (he : some w = some v) : v.command ≠ .drive := Option.some.inj he ▸ hne hp
    exact ⟨⟨fun _ => rfl, fun _ => nofun⟩, fun hp =>
      ⟨⟨fun v he hd => absurd hd (hsent hp v he), .inr ⟨w, rfl, hne hp⟩⟩, fun v he => hsent hp v he⟩⟩

theorem wordFor_ne_drive {park : ParkState} (h : park ≠ .running) (c : DriveCommand) (u : Int) (b : Bool) :
    (wordFor park c u b).command ≠ .drive := by
  cases c <;> simp [wordFor, h, brakeWord]

/-- The checks of a computation's last step touch neither the line nor the slot. -/
theorem handedLink_heldBack {park : ParkState} {l : DriveLink} (h : LinkHeldBack park l) (limit every : Nat) (c : DriveCommand)
    (u : Int) :
    LinkHeldBack park (handedLink park limit every l c u) ∧ (park ≠ .running → NoDriveStarted l (handedLink park limit every l c u)) := by
  have hmiss : (l.checkMiss limit).1.sending = l.sending ∧ (l.checkMiss limit).1.waiting = l.waiting ∧
      (l.checkMiss limit).1.lastWord = l.lastWord := by
    unfold DriveLink.checkMiss; split_ifs <;> exact ⟨rfl, rfl, rfl⟩
  have hcount (m : DriveLink) : (m.countRequest every).1.sending = m.sending ∧ (m.countRequest every).1.waiting = m.waiting ∧
      (m.countRequest every).1.lastWord = m.lastWord := by
    unfold DriveLink.countRequest; split_ifs <;> exact ⟨rfl, rfl, rfl⟩
  obtain ⟨hs, hv, hl⟩ := hcount (l.checkMiss limit).1
  obtain ⟨hs', hv', hl'⟩ := hmiss
  have hsame : LinkHeldBack park ((l.checkMiss limit).1.countRequest every).1 := by
    rw [LinkHeldBack, hs, hs', hv, hv']; exact h
  obtain ⟨hheld, hstart⟩ := hand_heldBack hsame
    (w := wordFor park c u ((l.checkMiss limit).1.countRequest every).2) (fun hp => wordFor_ne_drive hp c u _)
  refine ⟨hheld, fun hp => ?_⟩
  have hg := hstart hp
  rw [NoDriveStarted, hs, hs', hl, hl'] at hg
  exact hg

/-- The invariant against the state `s₀` in which the step begins: outside RUNNING the part stays there, and no DRIVE word has started. -/
structure DriveKept (s₀ s : State) : Prop where
  held : DriveHeldBack s
  started : s₀.le.park ≠ .running → s.le.park ≠ .running ∧ ∀ k, NoDriveStarted (s₀.dl.get k) (s.dl.get k)

/-- At the end of the step the part may have come to RUNNING, by a reset or the end of the settling period. -/
structure DriveEnded (s₀ s : State) : Prop where
  held : DriveHeldBack s
  started : s₀.le.park ≠ .running → s.le.park ≠ .running → ∀ k, NoDriveStarted (s₀.dl.get k) (s.dl.get k)

section
variable {s₀ s t : State}

theorem DriveKept.refl (h : DriveHeldBack s) : DriveKept s s := ⟨h, fun hp => ⟨hp, fun _ => .refl _⟩⟩

/-- A change of the links in which each is held back and no DRIVE word starts. -/
theorem DriveKept.links (h : DriveKept s₀ s) (hp : t.le.park = s.le.park)
    (hk : ∀ k, LinkHeldBack s.le.park (s.dl.get k) →
      LinkHeldBack s.le.park (t.dl.get k) ∧ (s.le.park ≠ .running → NoDriveStarted (s.dl.get k) (t.dl.get k))) : DriveKept s₀ t := by
  refine ⟨fun k => hp ▸ (hk k (h.held k)).1, fun h₀ => ?_⟩
  obtain ⟨hrun, hstart⟩ := h.started h₀
  exact ⟨hp ▸ hrun, fun k => (hstart k).trans ((hk k (h.held k)).2 hrun)⟩

/-- A change outside the links and the park state. -/
theorem DriveKept.same (h : DriveKept s₀ s) (hp : t.le.park = s.le.park) (hd : t.dl = s.dl) : DriveKept s₀ t :=
  h.links hp (fun k hk => ⟨by rw [hd]; exact hk, fun _ => by rw [hd]; exact .refl _⟩)

theorem DriveKept.outside (h : DriveKept s₀ s) (hs : SameOutside s t) : DriveKept s₀ t :=
  h.same (by rw [hs.2.1]) hs.2.2.1

theorem DriveKept.setLink (h : DriveKept s₀ s) (k : Axis) {l : DriveLink}
    (hl : LinkHeldBack s.le.park (s.dl.get k) →
      LinkHeldBack s.le.park l ∧ (s.le.park ≠ .running → NoDriveStarted (s.dl.get k) l)) : DriveKept s₀ (s.setLink k l) := by
  refine h.links rfl (fun j hj => ?_)
  rw [State.setLink_dl, Five.get_set]
  split
  · subst j; exact hl hj
  · exact ⟨hj, fun _ => .refl _⟩

theorem DriveKept.handBrake (h : DriveKept s₀ s) (k : Axis) : DriveKept s₀ (s.handWord k (brakeWord false)) :=
  h.setLink k (fun hk => hand_heldBack hk (fun _ => nofun))

theorem DriveKept.brakeAll (h : DriveKept s₀ s) : DriveKept s₀ s.brakeAll :=
  h.links rfl (fun k hk => by rw [State.brakeAll_dl, Five.get_mapAxis]; exact hand_heldBack hk (fun _ => nofun))

theorem DriveKept.settle (h : DriveKept s₀ s) (due : List Due) : DriveKept s₀ (s.settle due) := h.outside (settle_same _ _)

theorem DriveKept.killAxes (h : DriveKept s₀ s) : DriveKept s₀ s.killAxes := by
  refine keeps_foldl (fun t k ht => ?_) _ _ h
  unfold State.killAxis
  dsimp only
  split
  · exact (ht.outside (killAct_same t k)).handBrake k
  · split
    · exact ht.outside (setAxis_same _ _ _)
    · exact ht

theorem DriveKept.assertKill (h : DriveKept s₀ s) : DriveKept s₀ s.assertKill := by
  have hheld : DriveKept s₀ s.killHold :=
    (h.same (t := s.setHoldKill true) rfl rfl).outside (feedCue_same _ _)
  have hchosen : DriveKept s₀ { (s.killHold.choose 2).2 with killAsserted := true } :=
    (hheld.outside (choose_same _ 2)).same rfl rfl
  unfold State.assertKill
  dsimp only
  split
  · exact h
  · split
    · exact ((hchosen.settle _).killAxes).settle _
    · exact hchosen.killAxes.settle _

/-- A reset leaves the links idle, but for BRAKE words of a kill assertion at once. -/
theorem driveEnded_reset (s : State) (cause : ResetCause) (pins : Pins) : DriveEnded s₀ (s.resetWith cause pins) := by
  have hblocks : DriveHeldBack (s.blocksReset cause pins) := fun k => by
    change LinkHeldBack .running ((Five.all DriveLink.reset).get k)
    rw [Five.get_all]
    exact ⟨fun _ => rfl, nofun⟩
  have hkept := (DriveKept.refl hblocks).assertKill
  have hpark : (s.resetWith cause pins).le.park = .running := by
    unfold State.resetWith
    dsimp only
    split
    · rfl
    · exact assertKill_park _
  refine ⟨?_, fun _ hrun => absurd hpark hrun⟩
  unfold State.resetWith
  dsimp only
  split
  · exact hblocks
  · exact hkept.held

end

/-- Every part of an event keeps the DRIVE words back outside RUNNING. -/
theorem upheld_drive (s₀ : State) : Upheld (DriveKept s₀) (DriveKept s₀) (DriveEnded s₀) where
  within h := h
  final h := ⟨h.held, fun h₀ _ => (h.started h₀).2⟩
  settle _ _ h := h.settle _
  choose _ h := h.outside (choose_same _ _)
  reset _ _ _ := driveEnded_reset _ _ _
  tick h := h.same rfl rfl
  prot _ h := h.same rfl rfl
  trig line _ h := by cases line <;> exact h.same rfl rfl
  assertKill h := h.assertKill
  releaseKill {s} h := by
    unfold State.releaseKill
    split
    · exact (h.same (t := ({ s with killAsserted := false } : State).setHoldKill false) rfl rfl).settle _
    · exact h
  ports _ h := h.same rfl rfl
  portsWithin _ h := h.same rfl rfl
  linkHeld k _ h := h.setLink k (fun hk => ⟨hk, fun _ => .refl _⟩)
  keepReport k _ h := h.setLink k (fun hk => ⟨hk, fun _ => .refl _⟩)
  wordSent k h := h.setLink k (fun hk => ⟨(wordSent_heldBack hk).1, fun hp => ((wordSent_heldBack hk).2 hp).1⟩)
  beginFrame h := h.same rfl rfl
  restartFrameTimer h := h.same rfl rfl
  computeAxis {s} k n h := by
    obtain ⟨limit, every, c, demand, hdl⟩ := computeAxis_dl s k n
    refine (h.setLink k (fun hk => handedLink_heldBack hk limit every c demand)).same ?_ hdl
    rw [computeAxis_le]; rfl
  reportSegment _ _ _ h := h.outside (reportSegment_same _ _ _ _)
  changeCues _ h := h.outside (changeCues_same _ _)
  countFrame h := h.outside (countFrame_same _)
  link _ h := h.same rfl rfl
  setup _ h := h.same rfl rfl
  restartSilence h := h.same rfl rfl
  expireSilence h := h.same rfl rfl
  axes _ h := h.same rfl rfl
  applyMode _ _ _ h := h.outside (applyMode_same _ _ _ _)
  startSweep _ _ _ _ _ _ _ h := h.same rfl rfl
  abortSweep _ h := h.outside (abortSweep_same _)
  loadTuning _ h := h.same rfl rfl
  enqueue _ _ h := h.same rfl rfl
  run h := h.same rfl rfl
  pause h := h.same rfl rfl
  flush h := h.same rfl rfl
  pages _ _ h := h.same rfl rfl
  loadWaypoints _ h := h.same rfl rfl
  cueTable _ h := h.same rfl rfl
  clearSeen h := h.same rfl rfl
  configure _ h := h.same rfl rfl
  testMask _ h := h.same rfl rfl
  cancel _ h := h.same rfl rfl
  endService1 h := h.same rfl rfl
  resolve2 _ h := h.outside (resolve2_same _)
  store _ h := h.same rfl rfl
  park {s} h := by
    have hbraked := h.brakeAll
    refine ⟨fun k => ⟨(hbraked.held k).1, fun _ w hw => ?_⟩, fun h₀ => ⟨nofun, (hbraked.started h₀).2⟩⟩
    exact brakeAll_waiting h.held k hw
  unpark hparked h := by
    have hout : ∀ k, LinkHeldBack .parked _ := fun k => hparked ▸ h.held k
    exact ⟨fun k => ⟨(hout k).1, fun _ => (hout k).2 nofun⟩, fun h₀ => ⟨nofun, (h.started h₀).2⟩⟩
  settlingEnd {s} h := by
    unfold State.endSettling
    split
    · have hended : DriveEnded s₀ { s with le := { s.le with park := .running, settleElapsed := 0 } } :=
        ⟨fun k => ⟨(h.held k).1, fun hp => absurd rfl hp⟩, fun _ hp => absurd rfl hp⟩
      have hnotice := noticeDone_same { s with le := { s.le with park := .running, settleElapsed := 0 } } .unpark 0 0 0
      obtain ⟨-, hle, hdl, -⟩ := hnotice
      exact ⟨fun k => by rw [hle, hdl]; exact hended.held k, fun _ hp => absurd (by rw [hle]) hp⟩
    · exact ⟨h.held, fun h₀ _ => (h.started h₀).2⟩
  halt {s} h := by
    unfold State.takeHalt
    split
    · exact h
    · exact (h.same (t := ({ s with le := { s.le with halted := true } } : State).setFrameTimer) rfl rfl).brakeAll
  resume {s} h := by
    unfold State.takeRun
    split
    · exact h.same rfl rfl
    · exact h

/-- Settles O24: every part of an event keeps DRIVE words back; the end of a word on a link, outside RUNNING, starts no DRIVE word, so
that one on the line after a step is there since before it and its end has not come. -/
theorem noDriveOutsideRunning : Obligations.NoDriveOutsideRunning := by
  intro s t h ht
  have hended : DriveEnded s t :=
    (upheld_drive s).step (fun c rest _ => (DriveKept.refl h).same rfl rfl) (DriveKept.refl h) ht
  refine ⟨hended.held, fun hs hend k => ⟨fun w hw hd => ?_, (hended.started hs hend k).2⟩⟩
  refine ⟨(hended.started hs hend k).1 w hw hd, fun rest hq => ?_⟩
  have hsent : t = ({ s with pending := rest } : State).driveWordSent k := by
    unfold step at ht
    rw [hq] at ht
    exact (Host.Outcome.next.inj ht).symm
  subst hsent
  have hline : (s.dl.get k).wordSent.sending = some w := by
    rw [← hw]
    exact congrArg DriveLink.sending (Five.get_set_same s.dl k _).symm
  exact ((wordSent_heldBack (h k)).2 hs).2 w hline hd

end Sys2Proof.Machine
end

section
/-! PROOFS. What the operations on the axes and on the head of the queue do, said once each: the registers they leave alone, the notices
they offer, the bounds they keep. The invariants of the later parts are read off these relations. -/

namespace Sys2Proof.Machine

/-! ### Offered frames (R168) -/

/-- The Console Link after a report or notice is offered. -/
def Console.offer (c : Console) (f : Frame) : Console :=
  if c.txQueue.length < 4 then { c with txQueue := c.txQueue ++ [f] }
  else { c with counters := { c.counters with unaskedDrops := satInc c.counters.unaskedDrops } }

theorem offerUnasked_eq (s : State) (f : Frame) : s.offerUnasked f = { s with cl := s.cl.offer f } := by
  unfold State.offerUnasked State.txFree Console.offer State.pushTx
  by_cases h : s.cl.txQueue.length < 4 <;> simp [h]

/-- An ALERT_TAKEN or OP_DONE notice of the frame given (R179). -/
structure Notice (frame : Word) (f : Frame) : Prop where
  tag : f.tag = 0
  kind : f.kind = 0x48 ∨ f.kind = 0x49
  payload : f.payload.take 4 = wordBytes frame

/-- The link `d` is the link `c` after notices of the frame given. -/
def Noticed (frame : Word) (c d : Console) : Prop := ∃ fs : List Frame, (∀ f ∈ fs, Notice frame f) ∧ d = fs.foldl Console.offer c

theorem Noticed.refl (frame : Word) (c : Console) : Noticed frame c c := ⟨[], nofun, rfl⟩

theorem Noticed.trans {frame : Word} {c d e : Console} (h : Noticed frame c d) (g : Noticed frame d e) : Noticed frame c e := by
  obtain ⟨fs, hf, rfl⟩ := h
  obtain ⟨gs, hg, rfl⟩ := g
  refine ⟨fs ++ gs, fun f hm => ?_, by rw [List.foldl_append]⟩
  rcases List.mem_append.mp hm with hm | hm
  · exact hf f hm
  · exact hg f hm

theorem Noticed.one {frame : Word} {f : Frame} (h : Notice frame f) (c : Console) : Noticed frame c (c.offer f) :=
  ⟨[f], fun g hg => by rw [List.mem_singleton.mp hg]; exact h, rfl⟩

theorem noticeDone_notice (frame : Word) (op : DoneOp) (a b c : Byte) :
    Notice frame ⟨0x49, 0, wordBytes frame ++ [opCode op, a, b, c]⟩ := ⟨rfl, .inr rfl, rfl⟩

/-! ### Axes in range -/

theorem inRange_iff (s : State) :
    InRange s ↔ (∀ k, AxisInRange (s.axis k)) ∧ (s.sw.running = true → s.sw.dhi ≤ 63 ∧ s.sw.savedD ≤ 63 ∧ s.sw.currentD ≤ 63) := by
  refine and_congr_left fun _ => ⟨fun ⟨h1, h2, h3, h4, h5⟩ k => ?_, fun h => ⟨h .swing, h .lift, h .pan, h .tilt, h .roll⟩⟩
  cases k
  exacts [h1, h2, h3, h4, h5]

/-- The registers of an axis that its range speaks of are the same. -/
theorem AxisInRange.of_eq {a b : AxisRec} (h : AxisInRange a) (active : b.active = a.active := by rfl)
    (staged : b.staged = a.staged := by rfl) (i : b.i = a.i := by rfl) (uPrev : b.uPrev = a.uPrev := by rfl)
    (rdEff : b.rdEff = a.rdEff := by rfl) (rdTarget : b.rdTarget = a.rdTarget := by rfl) : AxisInRange b := by
  unfold AxisInRange
  rw [active, staged, i, uPrev, rdEff, rdTarget]
  exact h

theorem AxisInRange.entryCapture {a : AxisRec} (h : AxisInRange a) : AxisInRange (entryCapture a) := by
  obtain ⟨hactive, hstaged, -⟩ := h
  exact ⟨hactive, hstaged, Nat.zero_le _, Nat.zero_le _, Nat.zero_le _, Nat.zero_le _⟩

theorem AxisInRange.stand {a : AxisRec} (h : AxisInRange a) : AxisInRange { a with rdEff := 0, rdTarget := 0 } := by
  obtain ⟨hactive, hstaged, hi, hu, -⟩ := h
  exact ⟨hactive, hstaged, hi, hu, Nat.zero_le _, Nat.zero_le _⟩

theorem AxisInRange.enterFromInactive {a : AxisRec} (h : AxisInRange a) (m : Mode) : AxisInRange (enterFromInactive a m) := by
  unfold Machine.enterFromInactive
  dsimp only
  split
  · exact h.entryCapture.of_eq
  · exact h.entryCapture.of_eq

theorem AxisInRange.passBetweenActive {a : AxisRec} (h : AxisInRange a) (m : Mode) : AxisInRange (passBetweenActive a m) := by
  have hstand : AxisInRange (if m = .rate then { a with rdEff := 0, rdTarget := 0 } else a) := by
    split
    exacts [h.stand, h]
  unfold Machine.passBetweenActive
  dsimp only
  split
  · exact hstand.of_eq
  · exact hstand.of_eq

theorem AxisInRange.transitioned {a : AxisRec} (h : AxisInRange a) (t : TargetMode) : AxisInRange (transitioned a t) := by
  unfold Machine.transitioned
  split
  · exact h.of_eq
  · exact h.of_eq
  · split
    · exact h.passBetweenActive _
    · exact h.enterFromInactive _

theorem AxisInRange.setActiveD {a : AxisRec} (h : AxisInRange a) {d : Nat} (hd : d ≤ 63) :
    AxisInRange { a with active := { a.active with d := d } } := by
  obtain ⟨hactive, hrest⟩ := h
  exact ⟨Tuning.ok_setD hactive hd, hrest⟩

theorem AxisInRange.setStagedD {a : AxisRec} (h : AxisInRange a) {d : Nat} (hd : d ≤ 63) :
    AxisInRange { a with staged := { a.staged with d := d } } := by
  obtain ⟨hactive, hstaged, hrest⟩ := h
  exact ⟨hactive, Tuning.ok_setD hstaged hd, hrest⟩

theorem inRange_setAxis {s : State} {k : Axis} {a : AxisRec} (ha : AxisInRange (s.axis k) → AxisInRange a) (h : InRange s) :
    InRange (s.setAxis k a) := by
  rw [inRange_iff] at h ⊢
  obtain ⟨hx, hw⟩ := h
  refine ⟨fun j => ?_, hw⟩
  rw [State.axis_setAxis]
  split
  · exact ha (hx k)
  · exact hx j

/-! ### Work on the axes -/

/-- What an operation on axes, with its reports and a sweep's end, does: the head stays, but for the set it waits for. -/
structure AxisWork (s t : State) : Prop where
  outside : SameOutside s t
  noticed : Noticed s.le.frameNo s.cl t.cl
  alc : t.alc = s.alc
  ms : t.ms = { s.ms with phase := t.ms.phase }
  phase : t.ms.phase = s.ms.phase ∨
    (∃ o a, s.ms.phase = .waitingSegments o a) ∧ ∃ o a, t.ms.phase = .waitingSegments o a
  results : t.sw.results = s.sw.results
  inRange : InRange s → InRange t

theorem AxisWork.refl (s : State) : AxisWork s s := ⟨.rfl, .refl _ _, rfl, rfl, .inl rfl, rfl, id⟩

theorem AxisWork.trans {s t u : State} (h : AxisWork s t) (g : AxisWork t u) : AxisWork s u where
  outside := h.outside.trans g.outside
  noticed := by
    have hle := h.outside.2.1
    exact h.noticed.trans (hle ▸ g.noticed)
  alc := g.alc.trans h.alc
  ms := by rw [g.ms, h.ms]
  phase := by
    rcases g.phase with he | ⟨hw, hu⟩
    · rw [he]; exact h.phase
    · rcases h.phase with he | ⟨hs, -⟩
      · exact .inr ⟨he ▸ hw, hu⟩
      · exact .inr ⟨hs, hu⟩
  results := g.results.trans h.results
  inRange hr := g.inRange (h.inRange hr)

theorem AxisWork.foldl {α : Type} {f : State → α → State} (hf : ∀ s a, AxisWork s (f s a)) (l : List α) (s : State) :
    AxisWork s (l.foldl f s) :=
  keeps_foldl (P := AxisWork s) (fun t a ht => ht.trans (hf t a)) l s (.refl s)

theorem axisWork_setAxis (s : State) (k : Axis) {a : AxisRec} (ha : AxisInRange (s.axis k) → AxisInRange a) :
    AxisWork s (s.setAxis k a) :=
  ⟨setAxis_same s k a, .refl _ _, rfl, rfl, .inl rfl, rfl, inRange_setAxis ha⟩

/-- An axis operation done with an axis whose record is written last. -/
theorem AxisWork.setAxis {s t : State} (h : AxisWork s t) (k : Axis) {a : AxisRec} (ha : AxisInRange (t.axis k) → AxisInRange a) :
    AxisWork s (t.setAxis k a) := h.trans (axisWork_setAxis t k ha)

theorem axisWork_reportSegment (s : State) (k : Axis) (n : Half) (b : Bool) : AxisWork s (s.reportSegment k n b) := by
  have hsame := reportSegment_same s k n b
  unfold State.reportSegment at hsame ⊢
  split
  · next hq hp =>
    rw [hq, hp] at hsame
    dsimp only at hsame
    split
    · next hcond =>
      rw [if_pos hcond] at hsame
      exact ⟨hsame, .refl _ _, rfl, rfl, .inr ⟨⟨_, _, hp⟩, _, _, rfl⟩, rfl, id⟩
    · exact .refl s
  · exact .refl s

theorem axisWork_abortMotion (s : State) (k : Axis) : AxisWork s (s.abortMotion k) :=
  (axisWork_setAxis s k (fun h => h.of_eq)).trans (.foldl (fun t n => axisWork_reportSegment t k n true) _ _)

theorem noticed_endSweep (s : State) (o : SweepOutcome) (d : Nat) (a b : Option Nat) :
    Noticed s.le.frameNo s.cl (s.endSweep o d a b).cl := by
  unfold State.endSweep State.noticeDone
  rw [offerUnasked_eq]
  exact .one (noticeDone_notice _ _ _ _ _) _

theorem endSweep_eq (s : State) (o : SweepOutcome) (d : Nat) (a b : Option Nat) :
    s.endSweep o d a b =
      { s with
        sw := { s.sw with running := false, last := ⟨o, s.sw.axis, d, a, b, s.le.frameNo⟩ }
        cl := s.cl.offer ⟨0x49, 0, wordBytes s.le.frameNo ++ [1, byteOf (axisIndex s.sw.axis), sweepCode o, byteOf d]⟩ } := by
  unfold State.endSweep State.noticeDone
  rw [offerUnasked_eq]
  rfl

theorem axisWork_endSweep (s : State) (o : SweepOutcome) (d : Nat) (a b : Option Nat) : AxisWork s (s.endSweep o d a b) := by
  have hnoticed := noticed_endSweep s o d a b
  have hsame := endSweep_same s o d a b
  rw [endSweep_eq] at hsame hnoticed ⊢
  exact ⟨hsame, hnoticed, rfl, rfl, .inl rfl, rfl, fun ⟨hx, _⟩ => ⟨hx, nofun⟩⟩

/-- A D from a running sweep's context, or from its good set, is in the range of R32. -/
theorem axisWork_setActiveD (s : State) (k : Axis) {d : Nat} (hd : InRange s → d ≤ 63) : AxisWork s (s.setActiveD k d) :=
  ⟨setAxis_same s k _, .refl _ _, rfl, rfl, .inl rfl, rfl, fun h => inRange_setAxis (fun ha => ha.setActiveD (hd h)) h⟩

theorem axisWork_setStagedD (s : State) (k : Axis) {d : Nat} (hd : InRange s → d ≤ 63) : AxisWork s (s.setStagedD k d) :=
  ⟨setAxis_same s k _, .refl _ _, rfl, rfl, .inl rfl, rfl, fun h => inRange_setAxis (fun ha => ha.setStagedD (hd h)) h⟩

theorem axisWork_abortSweep {s : State} (h : s.sw.running = true) : AxisWork s s.abortSweep :=
  (axisWork_setActiveD s _ (fun hr => (hr.2 h).2.1)).trans (axisWork_endSweep _ _ _ _ _)

theorem running_of_sweeping {s : State} {k : Axis} (h : sweeping s k = true) : s.sw.running = true ∧ s.sw.axis = k := by
  simpa [sweeping] using h

theorem axisWork_leaveHold (s : State) (k : Axis) : AxisWork s (s.leaveHold k) := by
  unfold State.leaveHold
  split
  · next h => exact axisWork_abortSweep (running_of_sweeping h).1
  · exact .refl s

theorem axisWork_makeTransition (s : State) (k : Axis) (t : TargetMode) : AxisWork s (s.makeTransition k t) := by
  have hleft : AxisWork s (if ((s.abortMotion k).axis k).mode = .hold then (s.abortMotion k).leaveHold k else s.abortMotion k) := by
    split
    · exact (axisWork_abortMotion s k).trans (axisWork_leaveHold _ k)
    · exact axisWork_abortMotion s k
  exact hleft.setAxis k (fun h => h.transitioned t)

theorem axisWork_applyTransition (s : State) (k : Axis) (t : TargetMode) : AxisWork s (s.applyTransition k t) := by
  unfold State.applyTransition
  split
  · exact axisWork_makeTransition s k t
  · exact .refl s

theorem axisWork_enterSafe (s : State) (k : Axis) : AxisWork s (s.enterSafe k) := by
  unfold State.enterSafe
  split
  · exact ((axisWork_abortMotion s k).trans (axisWork_leaveHold _ k)).setAxis k (fun h => h.of_eq)
  · exact .refl s

theorem axisWork_handLaunch (s : State) (k : Axis) (g : Segment) : AxisWork s (s.handLaunch k g) := by
  have hset : AxisWork s (s.setAxis k { s.axis k with launch := some g }) := axisWork_setAxis s k (fun h => h.of_eq)
  unfold State.handLaunch
  dsimp only
  split
  · exact hset.trans (axisWork_reportSegment _ _ _ _)
  · exact hset

theorem axisWork_killHalt (s : State) (k : Axis) : AxisWork s (s.killHalt k) :=
  ((axisWork_abortMotion s k).trans (axisWork_leaveHold _ k)).setAxis k (fun h => h.of_eq)

theorem axisWork_killPause (s : State) (k : Axis) : AxisWork s (s.killPause k) := by
  refine (axisWork_abortMotion s k).setAxis k (fun h => ?_)
  split
  · exact (h.passBetweenActive .hold).of_eq
  · exact h.of_eq

theorem axisWork_killAct (s : State) (k : Axis) : AxisWork s (s.killAct k) := by
  unfold State.killAct
  split
  · exact axisWork_killHalt s k
  · exact axisWork_killPause s k

theorem axisWork_returnFromSafe (s : State) (k : Axis) (m : Mode) : AxisWork s (s.returnFromSafe k m) :=
  axisWork_setAxis s k (fun h => h.enterFromInactive _)

/-! ### Work of the head of the queue -/

/-- The head is DWELLING, WAITING_CUE or WAITING_SEGMENTS. -/
def headWaits : HeadPhase → Bool
  | .none => false
  | .pending => false
  | _ => true

/-- How many moves the queue can still make: an entry begins, and one that waits then retires. -/
def headMoves (s : State) : Nat := 2 * s.ms.queue.length - (headWaits s.ms.phase).toNat

/-- The head phase is NONE exactly when the queue is empty (R75). -/
abbrev PhaseCoherent (m : Sequencer) : Prop := m.phase = .none ↔ m.queue = []

/-- What an operation on the head of the queue does. -/
structure HeadWork (s t : State) : Prop where
  outside : SameOutside s t
  noticed : Noticed s.le.frameNo s.cl t.cl
  alc : t.alc = s.alc
  ms : t.ms = { s.ms with queue := t.ms.queue, phase := t.ms.phase, doneList := t.ms.doneList, cues := t.ms.cues }
  queue : t.ms.queue <:+ s.ms.queue
  moves : headMoves t ≤ headMoves s
  doneList : s.ms.doneList.length ≤ 8 → t.ms.doneList.length ≤ 8
  coherent : PhaseCoherent s.ms → PhaseCoherent t.ms
  results : t.sw.results = s.sw.results
  inRange : InRange s → InRange t

theorem HeadWork.refl (s : State) : HeadWork s s := ⟨.rfl, .refl _ _, rfl, rfl, List.suffix_rfl, le_rfl, id, id, rfl, id⟩

theorem HeadWork.trans {s t u : State} (h : HeadWork s t) (g : HeadWork t u) : HeadWork s u where
  outside := h.outside.trans g.outside
  noticed := by
    have hle := h.outside.2.1
    exact h.noticed.trans (hle ▸ g.noticed)
  alc := g.alc.trans h.alc
  ms := by rw [g.ms, h.ms]
  queue := g.queue.trans h.queue
  moves := g.moves.trans h.moves
  doneList hl := g.doneList (h.doneList hl)
  coherent hc := g.coherent (h.coherent hc)
  results := g.results.trans h.results
  inRange hr := g.inRange (h.inRange hr)

theorem AxisWork.queue {s t : State} (h : AxisWork s t) : t.ms.queue = s.ms.queue := by rw [h.ms]

theorem AxisWork.headWaits {s t : State} (h : AxisWork s t) : headWaits t.ms.phase = headWaits s.ms.phase := by
  rcases h.phase with he | ⟨⟨o, a, hs⟩, o', a', ht⟩
  · rw [he]
  · rw [hs, ht]; rfl

theorem AxisWork.phase_ne_none {s t : State} (h : AxisWork s t) (hp : s.ms.phase ≠ .none) : t.ms.phase ≠ .none := by
  rcases h.phase with he | ⟨-, o', a', ht⟩
  · rw [he]; exact hp
  · rw [ht]; exact nofun

theorem AxisWork.head {s t : State} (h : AxisWork s t) : HeadWork s t where
  outside := h.outside
  noticed := h.noticed
  alc := h.alc
  ms := by rw [h.ms]
  queue := h.queue ▸ List.suffix_rfl
  moves := by unfold headMoves; rw [h.headWaits, h.queue]
  doneList hl := by rw [h.ms]; exact hl
  coherent hc := by
    rw [PhaseCoherent, h.queue, ← show s.ms.phase = .none ↔ s.ms.queue = [] from hc]
    rcases h.phase with he | ⟨⟨o, a, hs⟩, o', a', ht⟩
    · rw [he]
    · rw [hs, ht]; exact ⟨nofun, nofun⟩
  results := h.results
  inRange := h.inRange

theorem headWaits_freshPhase (q : List Entry) : headWaits (freshPhase q) = false := by
  unfold freshPhase; split <;> rfl

theorem freshPhase_coherent (q : List Entry) : freshPhase q = .none ↔ q = [] := by
  unfold freshPhase; split <;> simp_all

/-- The Done List stays a ring of eight (R88). -/
theorem length_appendDone {l : List DoneRecord} (h : l.length ≤ 8) (r : DoneRecord) : (appendDone l r).length ≤ 8 := by
  simp only [appendDone, List.length_drop, List.length_append, List.length_singleton]
  omega

theorem retire_eq {s : State} {e : Entry} {rest : List Entry} (h : s.ms.queue = e :: rest) (o : EntryOutcome) :
    s.retire o =
      { s with
        ms :=
          { s.ms with
            queue := rest
            phase := freshPhase rest
            doneList := appendDone s.ms.doneList ⟨e.serial, e.tag, e.body.kind, o, s.le.frameNo⟩ } } := by
  unfold State.retire
  rw [h]

theorem retire_nil {s : State} (h : s.ms.queue = []) (o : EntryOutcome) : s.retire o = s := by
  unfold State.retire
  rw [h]

theorem headWork_retire (s : State) (o : EntryOutcome) : HeadWork s (s.retire o) := by
  cases hq : s.ms.queue with
  | nil => rw [retire_nil hq]; exact .refl s
  | cons e rest =>
    have hsame := retire_same s o
    rw [retire_eq hq] at hsame ⊢
    refine ⟨hsame, .refl _ _, rfl, rfl, ?_, ?_, fun hl => length_appendDone hl _, fun _ => freshPhase_coherent rest, rfl, id⟩
    · rw [hq]; exact List.suffix_cons e rest
    · unfold headMoves
      rw [hq]
      have := Bool.toNat_le (headWaits s.ms.phase)
      simp only [List.length_cons]
      omega

/-- A head that waits comes to wait again, or an entry begins to wait. -/
theorem headWork_setPhase {s : State} {p : HeadPhase} (hp : p ≠ .none) (hs : s.ms.phase ≠ .none)
    (hw : headWaits s.ms.phase = true → headWaits p = true) : HeadWork s (s.setPhase p) := by
  refine ⟨setPhase_same s p, .refl _ _, rfl, rfl, List.suffix_rfl, ?_, id, fun hc => ?_, rfl, id⟩
  · unfold headMoves
    rw [State.setPhase_ms]
    cases hs : headWaits s.ms.phase with
    | false => simp
    | true => rw [hw hs]
  · exact ⟨fun h => absurd h hp, fun h => absurd (hc.mpr h) hs⟩

theorem headWork_writeCues (s : State) (c : Byte) : HeadWork s (s.writeCues c) :=
  ⟨writeCues_same s c, .refl _ _, rfl, rfl, List.suffix_rfl, le_rfl, id, id, rfl, id⟩

theorem headWork_retireWait (s : State) (m : Byte) (a c : Bool) : HeadWork s (s.retireWait m a c) := by
  unfold State.retireWait
  split
  · exact (headWork_writeCues s _).trans (headWork_retire _ _)
  · exact headWork_retire s _

theorem axisWork_launchAxis (e : Entry) (dn : Nat) (sh : Shape) (em : EndMode) (p : State × AxisSet) (k : Axis) :
    AxisWork p.1 (launchAxis e dn sh em p k).1 := by
  unfold launchAxis
  dsimp only
  split
  · split
    · exact axisWork_handLaunch _ _ _
    · exact .refl _
  · exact .refl _

theorem axisWork_launchAll (e : Entry) (dn : Nat) (sh : Shape) (em : EndMode) (l : List Axis) (p : State × AxisSet) :
    AxisWork p.1 (l.foldl (launchAxis e dn sh em) p).1 :=
  keeps_foldl (P := fun q : State × AxisSet => AxisWork p.1 q.1) (fun q k hq => hq.trans (axisWork_launchAxis e dn sh em q k)) l p
    (.refl _)

theorem axisWork_modeAll (t : TargetMode) (l : List Axis) (p : State × Bool) : AxisWork p.1 (l.foldl (modeAxis t) p).1 := by
  refine keeps_foldl (P := fun q : State × Bool => AxisWork p.1 q.1) (fun q k hq => hq.trans ?_) l p (.refl _)
  unfold modeAxis
  split
  · exact axisWork_makeTransition _ _ _
  · exact .refl _

/-- The head has begun: its entry is off the queue, or it waits. -/
def HeadBegun (s t : State) : Prop := t.ms.queue.length < s.ms.queue.length ∨ t.ms.queue = s.ms.queue ∧ headWaits t.ms.phase = true

theorem length_retire {s : State} (h : s.ms.queue ≠ []) (o : EntryOutcome) : (s.retire o).ms.queue.length < s.ms.queue.length := by
  obtain ⟨e, rest, hq⟩ := List.exists_cons_of_ne_nil h
  rw [retire_eq hq, hq]
  exact Nat.lt_succ_self _

theorem length_retireWait {s : State} (h : s.ms.queue ≠ []) (m : Byte) (a c : Bool) :
    (s.retireWait m a c).ms.queue.length < s.ms.queue.length := by
  unfold State.retireWait
  split
  · exact length_retire (s := s.writeCues (s.ms.cues &&& ~~~(matchedCues s.ms.cues m a))) h _
  · exact length_retire h _

theorem beginLaunch_work {s : State} (hq : s.ms.queue ≠ []) (hp : s.ms.phase ≠ .none) (e : Entry) (dn : Nat) (sh : Shape)
    (em : EndMode) (w : Bool) : HeadWork s (s.beginLaunch e dn sh em w) ∧ HeadBegun s (s.beginLaunch e dn sh em w) := by
  have hall := axisWork_launchAll e dn sh em allAxes (s, 0)
  have hq' : (allAxes.foldl (launchAxis e dn sh em) (s, 0)).1.ms.queue ≠ [] := by rw [hall.queue]; exact hq
  have hretire (o : EntryOutcome) := headWork_retire (allAxes.foldl (launchAxis e dn sh em) (s, 0)).1 o
  have hshort (o : EntryOutcome) : HeadBegun s ((allAxes.foldl (launchAxis e dn sh em) (s, 0)).1.retire o) := by
    left
    rw [← hall.queue]
    exact length_retire hq' o
  unfold State.beginLaunch
  dsimp only
  split_ifs
  · exact ⟨hall.head.trans (hretire _), hshort _⟩
  · refine ⟨hall.head.trans (headWork_setPhase nofun (hall.phase_ne_none hp) fun _ => rfl), .inr ⟨hall.queue, rfl⟩⟩
  · exact ⟨hall.head.trans (hretire _), hshort _⟩

theorem beginEntry_work {s : State} (hq : s.ms.queue ≠ []) (hp : s.ms.phase ≠ .none) (e : Entry) :
    HeadWork s (s.beginEntry e) ∧ HeadBegun s (s.beginEntry e) := by
  have hwait {p : HeadPhase} (hw : headWaits p = true) : HeadWork s (s.setPhase p) ∧ HeadBegun s (s.setPhase p) :=
    ⟨headWork_setPhase (by rintro rfl; cases hw) hp (fun _ => hw), .inr ⟨rfl, hw⟩⟩
  unfold State.beginEntry
  split
  · exact beginLaunch_work hq hp _ _ _ _ _
  · exact beginLaunch_work hq hp _ _ _ _ _
  · exact hwait rfl
  · split
    · exact ⟨headWork_retireWait s _ _ _, .inl (length_retireWait hq _ _ _)⟩
    · exact hwait rfl
  · exact ⟨(headWork_writeCues s _).trans (headWork_retire _ _), .inl (length_retire (s := s.writeCues (clearedAndSet s.ms.cues _ _)) hq _)⟩
  · next mask target _ =>
    have hall := axisWork_modeAll target (axesOf mask) (s, false)
    refine ⟨hall.head.trans (headWork_retire _ _), .inl ?_⟩
    rw [← hall.queue]
    exact length_retire (by rw [hall.queue]; exact hq) _

/-- A move of the head, and what it costs of the moves left. -/
theorem headStep_work {s t : State} (h : s.headStep = some t) : HeadWork s t ∧ headMoves t < headMoves s := by
  obtain ⟨-, e, rest, hqueue, hcase⟩ := headStep_cases h
  have hq : s.ms.queue ≠ [] := by rw [hqueue]; nofun
  have hlen : 1 ≤ s.ms.queue.length := by rw [hqueue]; exact Nat.succ_pos _
  have hbool := Bool.toNat_le (headWaits t.ms.phase)
  unfold headMoves
  rcases hcase with ⟨hp, rfl⟩ | ⟨left, mask, any, consume, timeout, hp, -, -, rfl⟩ | ⟨aborted, hp, rfl⟩
  · obtain ⟨hwork, hbegun⟩ := beginEntry_work hq (by rw [hp]; nofun) e
    refine ⟨hwork, ?_⟩
    rw [hp]
    rcases hbegun with hlt | ⟨he, hw⟩
    · simp only [headWaits, Bool.toNat_false]; omega
    · rw [he, hw]; simp only [headWaits, Bool.toNat_false, Bool.toNat_true]; omega
  · refine ⟨headWork_retireWait s _ _ _, ?_⟩
    have hlt := length_retireWait hq mask any consume
    have hw : headWaits s.ms.phase = true := by rw [hp]; rfl
    rw [hw, Bool.toNat_true]
    omega
  · refine ⟨headWork_retire s _, ?_⟩
    have hlt := length_retire hq (if aborted then .aborted else .done)
    have hw : headWaits s.ms.phase = true := by rw [hp]; rfl
    rw [hw, Bool.toNat_true]
    omega

theorem headWork_changeCues (s : State) (c : Byte) : HeadWork s (s.changeCues c) :=
  changeCues_keeps (P := HeadWork s) (fun t c h => h.trans (headWork_writeCues t c)) (fun _ _ h g => h.trans (headStep_work g).1) s c
    (.refl s)

theorem headWork_feedCue (s : State) (sel : Selector) : HeadWork s (s.feedCue sel) := headWork_changeCues s _

theorem headWork_countFrame (s : State) : HeadWork s s.countFrame := by
  unfold State.countFrame
  split
  · split
    · next n hp =>
      split
      · exact headWork_retire s _
      · exact headWork_setPhase nofun (by rw [hp]; nofun) fun _ => rfl
    · next n hp =>
      split
      · exact headWork_retire s _
      · exact headWork_setPhase nofun (by rw [hp]; nofun) fun _ => rfl
    · exact .refl s
  · exact .refl s

end Sys2Proof.Machine
end

section
/-! PROOFS. The Alert Controller's work (R143 to R150): what a taking writes, what a settling keeps, and that a settling ends at rest. -/

namespace Sys2Proof.Machine

/-! ### A taking (R147) -/

/-- The cause record that a taking writes. -/
def takenCause (s : State) (level : Level) (src : Source) : Cause :=
  ⟨src, level, affectedAxes s src, (s.causeParam src).1, s.le.frameNo⟩

/-- The state that the level's action starts from: the level in service with its records, and at level 2 the hold (R147, R150). -/
def State.inService (s : State) (level : Level) (src : Source) : State :=
  let t := (s.causeParam src).2.recordTaking (takenCause s level src)
  match level with
  | .one => t.dampAxes (affectedAxes s src)
  | .two => t.setHoldAlert true

/-- The level's action from there: its cues, and at level 2 SAFE (R147, R150). -/
def State.acted (s : State) (level : Level) (src : Source) : State :=
  match level with
  | .one => (s.inService .one src).feedCue (.alert .one)
  | .two => (axesOf (affectedAxes s src)).foldl State.enterSafe ((s.inService .two src).feedCue (.alert .two))

theorem take_eq (s : State) (level : Level) (src : Source) :
    s.take level src = (((s.acted level src).setSeen level).noticeTaken (takenCause s level src)).clearTaken src := by
  cases level <;> rfl

theorem acted_work (s : State) (level : Level) (src : Source) : HeadWork (s.inService level src) (s.acted level src) := by
  cases level with
  | one => exact headWork_feedCue _ _
  | two => exact (headWork_feedCue _ _).trans (AxisWork.foldl axisWork_enterSafe _ _).head

theorem causeParam_eq (s : State) (src : Source) : (s.causeParam src).2 = { s with freeCount := (s.causeParam src).2.freeCount } := by
  cases src <;> simp only [State.causeParam] <;> first | rfl | (split <;> rfl)

theorem inService_alc (s : State) (level : Level) (src : Source) :
    (s.inService level src).alc =
      match level with
      | .one =>
        { s.alc with
          inService1 := true, cause1 := some (takenCause s .one src), link1 := some (s.axes.mapAxis (fun _ a => a.damp)) }
      | .two =>
        { s.alc with
          inService2 := true, cause2 := some (takenCause s .two src), link2 := some (s.axes.mapAxis (fun _ a => a.mode)) } := by
  unfold State.inService
  rw [causeParam_eq]
  cases level <;> rfl

theorem inService_ms (s : State) (level : Level) (src : Source) :
    (s.inService level src).ms = { s.ms with holdAlert := s.ms.holdAlert || decide (level = .two) } := by
  unfold State.inService
  rw [causeParam_eq]
  cases level <;> simp [State.recordTaking, State.dampAxes, State.setHoldAlert, takenCause]

theorem inService_sw (s : State) (level : Level) (src : Source) : (s.inService level src).sw = s.sw := by
  unfold State.inService
  rw [causeParam_eq]
  cases level <;> rfl

theorem inService_axes (s : State) (level : Level) (src : Source) :
    (s.inService level src).axes =
      match level with
      | .one => s.axes.mapAxis (fun k a => if hasAxis (affectedAxes s src) k then { a with damp := true } else a)
      | .two => s.axes := by
  unfold State.inService
  rw [causeParam_eq]
  cases level <;> rfl

theorem inService_same (s : State) (level : Level) (src : Source) : SameOutside s (s.inService level src) := by
  unfold State.inService
  rw [causeParam_eq]
  cases level <;> (apply SameOutside.of_cl <;> rfl)

theorem inService_cl (s : State) (level : Level) (src : Source) : (s.inService level src).cl = s.cl := by
  unfold State.inService
  rw [causeParam_eq]
  cases level <;> rfl

theorem inService_inRange {s : State} (level : Level) (src : Source) (h : InRange s) : InRange (s.inService level src) := by
  rw [inRange_iff] at h ⊢
  obtain ⟨hx, hw⟩ := h
  refine ⟨fun k => ?_, by rw [inService_sw]; exact hw⟩
  rw [State.axis, inService_axes]
  cases level with
  | two => exact hx k
  | one =>
    dsimp only
    rw [Five.get_mapAxis]
    split
    · exact (hx k).of_eq
    · exact hx k

theorem noticeTaken_eq (s : State) (c : Cause) :
    s.noticeTaken c =
      { s with
        cl := s.cl.offer
          ⟨0x48, 0, wordBytes c.frame ++ [levelByte c.level, byteOf (sourceNumber c.source), axisSetByte c.mask] ++
            halfBytes c.param⟩ } :=
  offerUnasked_eq _ _

theorem clearTaken_eq (s : State) (src : Source) :
    s.clearTaken src =
      { s with
        alc :=
          { s.alc with
            sources :=
              if (s.source src).latched then s.alc.sources.set src { s.source src with pending := false } else s.alc.sources } } := by
  unfold State.clearTaken
  dsimp only
  split <;> rfl

/-- What a taking writes in the Alert Controller (R147). -/
theorem take_alc (s : State) (level : Level) (src : Source) :
    (s.take level src).alc =
      let sources :=
        if (s.source src).latched then s.alc.sources.set src { s.source src with pending := false } else s.alc.sources
      match level with
      | .one =>
        { s.alc with
          sources, seen1 := true
          inService1 := true, cause1 := some (takenCause s .one src), link1 := some (s.axes.mapAxis (fun _ a => a.damp)) }
      | .two =>
        { s.alc with
          sources, seen2 := true
          inService2 := true, cause2 := some (takenCause s .two src), link2 := some (s.axes.mapAxis (fun _ a => a.mode)) } := by
  have hacted := (acted_work s level src).alc
  rw [take_eq, clearTaken_eq, noticeTaken_eq]
  rw [inService_alc] at hacted
  cases level <;> simp only [State.setSeen, State.source, hacted] <;> rfl

theorem take_ms (s : State) (level : Level) (src : Source) : (s.take level src).ms = (s.acted level src).ms := by
  rw [take_eq, clearTaken_eq, noticeTaken_eq]
  exact State.setSeen_ms _ _

theorem take_axes (s : State) (level : Level) (src : Source) : (s.take level src).axes = (s.acted level src).axes := by
  rw [take_eq, clearTaken_eq, noticeTaken_eq]
  exact State.setSeen_axes _ _

theorem take_sw (s : State) (level : Level) (src : Source) : (s.take level src).sw = (s.acted level src).sw := by
  rw [take_eq, clearTaken_eq, noticeTaken_eq]
  exact State.setSeen_sw _ _

theorem take_cl (s : State) (level : Level) (src : Source) :
    (s.take level src).cl =
      (s.acted level src).cl.offer
        ⟨0x48, 0, wordBytes s.le.frameNo ++ [levelByte level, byteOf (sourceNumber src), axisSetByte (affectedAxes s src)] ++
          halfBytes (s.causeParam src).1⟩ := by
  rw [take_eq, clearTaken_eq, noticeTaken_eq, State.setSeen_cl]
  rfl

/-! ### What the Alert Controller's work keeps -/

/-- What a taking, a judging and a source's becoming pending do, the head's moves among them. -/
structure AlertWork (s t : State) : Prop where
  outside : SameOutside s t
  noticed : Noticed s.le.frameNo s.cl t.cl
  ms : t.ms =
    { s.ms with
      queue := t.ms.queue, phase := t.ms.phase, doneList := t.ms.doneList, cues := t.ms.cues, holdAlert := t.ms.holdAlert }
  queue : t.ms.queue <:+ s.ms.queue
  moves : headMoves t ≤ headMoves s
  doneList : s.ms.doneList.length ≤ 8 → t.ms.doneList.length ≤ 8
  coherent : PhaseCoherent s.ms → PhaseCoherent t.ms
  results : t.sw.results = s.sw.results
  inRange : InRange s → InRange t
  service1 : s.alc.inService1 = true → t.alc.inService1 = true
  service2 : s.alc.inService2 = true → t.alc.inService2 = true
  records1 : (s.alc.inService1 = true → s.alc.cause1.isSome = true ∧ s.alc.link1.isSome = true) →
    t.alc.inService1 = true → t.alc.cause1.isSome = true ∧ t.alc.link1.isSome = true
  records2 : (s.alc.inService2 = true → s.alc.cause2.isSome = true ∧ s.alc.link2.isSome = true) →
    t.alc.inService2 = true → t.alc.cause2.isSome = true ∧ t.alc.link2.isSome = true
  /-- The hold stands exactly while level 2 is in service; where it stood without, it stands on. -/
  held : s.ms.holdAlert = s.alc.inService2 → t.ms.holdAlert = t.alc.inService2
  holds : s.ms.holdAlert = true → t.ms.holdAlert = true

theorem AlertWork.refl (s : State) : AlertWork s s :=
  ⟨.rfl, .refl _ _, rfl, List.suffix_rfl, le_rfl, id, id, rfl, id, id, id, id, id, id, id⟩

theorem AlertWork.trans {s t u : State} (h : AlertWork s t) (g : AlertWork t u) : AlertWork s u where
  outside := h.outside.trans g.outside
  noticed := by
    have hle := h.outside.2.1
    exact h.noticed.trans (hle ▸ g.noticed)
  ms := by rw [g.ms, h.ms]
  queue := g.queue.trans h.queue
  moves := g.moves.trans h.moves
  doneList hl := g.doneList (h.doneList hl)
  coherent hc := g.coherent (h.coherent hc)
  results := g.results.trans h.results
  inRange hr := g.inRange (h.inRange hr)
  service1 hs := g.service1 (h.service1 hs)
  service2 hs := g.service2 (h.service2 hs)
  records1 hs := g.records1 (h.records1 hs)
  records2 hs := g.records2 (h.records2 hs)
  held he := g.held (h.held he)
  holds hh := g.holds (h.holds hh)

theorem HeadWork.alert {s t : State} (h : HeadWork s t) : AlertWork s t where
  outside := h.outside
  noticed := h.noticed
  ms := by rw [h.ms]
  queue := h.queue
  moves := h.moves
  doneList := h.doneList
  coherent := h.coherent
  results := h.results
  inRange := h.inRange
  service1 hs := by rw [h.alc]; exact hs
  service2 hs := by rw [h.alc]; exact hs
  records1 hr := by rw [h.alc]; exact hr
  records2 hr := by rw [h.alc]; exact hr
  held he := by rw [h.alc, h.ms]; exact he
  holds hh := by rw [h.ms]; exact hh

theorem alertWork_take (s : State) (level : Level) (src : Source) : AlertWork s (s.take level src) := by
  have hact := acted_work s level src
  have hms := inService_ms s level src
  have halc := take_alc s level src
  have hnotice : Noticed s.le.frameNo s.cl (s.take level src).cl := by
    have hle : (s.inService level src).le = s.le := (inService_same s level src).2.1
    rw [take_cl]
    refine Noticed.trans ?_ (Noticed.one ⟨rfl, .inl rfl, rfl⟩ _)
    rw [← inService_cl s level src, ← hle]
    exact hact.noticed
  have hmoves : headMoves (s.inService level src) = headMoves s := by unfold headMoves; rw [hms]
  refine
    { outside := take_same s level src
      noticed := hnotice
      ms := by rw [take_ms, hact.ms, hms]
      queue := by have hq := hact.queue; rw [hms] at hq; rw [take_ms]; exact hq
      moves := by
        have hm := hact.moves
        rw [hmoves] at hm
        unfold headMoves at hm ⊢
        rw [take_ms]
        exact hm
      doneList := fun hl => by rw [take_ms]; exact hact.doneList (by rw [hms]; exact hl)
      coherent := fun hc => by rw [take_ms]; exact hact.coherent (by rw [hms]; exact hc)
      results := by rw [take_sw, hact.results, inService_sw]
      inRange := fun hr => ?_
      service1 := fun hs => by rw [halc]; cases level <;> first | rfl | exact hs
      service2 := fun hs => by rw [halc]; cases level <;> first | rfl | exact hs
      records1 := fun hr => by rw [halc]; cases level with | one => exact fun _ => ⟨rfl, rfl⟩ | two => exact hr
      records2 := fun hr => by rw [halc]; cases level with | one => exact hr | two => exact fun _ => ⟨rfl, rfl⟩
      held := fun he => ?_
      holds := fun hh => by rw [take_ms, hact.ms, hms]; simp [hh] }
  · have hr' := hact.inRange (inService_inRange level src hr)
    rw [inRange_iff] at hr' ⊢
    rw [take_sw]
    unfold State.axis at hr' ⊢
    rw [take_axes]
    exact hr'
  · rw [take_ms, hact.ms, hms, halc]
    cases level <;> simp [he]

theorem alertWork_sources (s : State) (x : Sources SourceState) : AlertWork s { s with alc := { s.alc with sources := x } } :=
  ⟨.of_cl rfl rfl rfl rfl rfl rfl rfl rfl, .refl _ _, rfl, List.suffix_rfl, le_rfl, id, id, rfl, id, id, id, id, id, id, id⟩

theorem alertWork_markDue (s : State) (d : Due) : AlertWork s (s.markDue d) := by
  cases d <;> exact alertWork_sources s _

theorem alertWork_recordRise (s : State) (src : Source) : AlertWork s (s.recordRise src) := alertWork_sources s _

theorem alertWork_dropFallen (s : State) : AlertWork s s.dropFallen := alertWork_sources s _

/-- A choice changes the model's choice fields alone. -/
theorem choose_eq (s : State) (n : Nat) :
    (s.choose n).2 = { s with schedule := (s.choose n).2.schedule, freeCount := (s.choose n).2.freeCount } := by
  unfold State.choose
  split <;> [rfl; (split <;> rfl)]

theorem alertWork_choose (s : State) (n : Nat) : AlertWork s (s.choose n).2 := by
  rw [choose_eq]
  exact ⟨.of_cl rfl rfl rfl rfl rfl rfl rfl rfl, .refl _ _, rfl, List.suffix_rfl, le_rfl, id, id, rfl, id, id, id, id, id, id, id⟩

theorem alertWork_judge (s : State) : AlertWork s s.judge.1 :=
  judge_keeps (P := AlertWork s) (fun _ h => h.trans (alertWork_dropFallen _)) (fun _ _ h => h.trans (alertWork_recordRise _ _)) s
    (.refl s)

theorem alertWork_settle (s : State) (due : List Due) : AlertWork s (s.settle due) :=
  settle_keeps (P := AlertWork s) (fun _ h => h.trans (alertWork_dropFallen _)) (fun _ _ h => h.trans (alertWork_recordRise _ _))
    (fun _ _ h => h.trans (alertWork_choose _ _)) (fun _ _ h => h.trans (alertWork_markDue _ _))
    (fun _ _ _ h => h.trans (alertWork_take _ _ _)) (fun _ _ h g => h.trans (headStep_work g).1.alert) due s (.refl s)

/-! ### A settling ends at rest -/

/-- The truths are judged: every fall and rise is recorded. -/
abbrev Judged (s : State) : Prop := s.dropFallen = s ∧ risings s = []

/-- The levels that can still be taken. -/
def takings (s : State) : Nat := (!s.alc.inService1).toNat + (!s.alc.inService2).toNat

theorem conditionTruth_alc (s : State) (x : Alerts) (src : Source) : conditionTruth { s with alc := x } src = conditionTruth s src := by
  cases src <;> rfl

theorem Sources.get_set {α : Type} (x : Sources α) (src j : Source) (v : α) :
    (x.set src v).get j = if j = src then v else x.get j := by
  split
  · next h => subst h; exact Sources.get_set_same x j v
  · next h => cases src <;> cases j <;> simp_all [Sources.set, Sources.get, Five.get_set]

@[simp] theorem Sources.get_mapSource {α β : Type} (g : Source → α → β) (x : Sources α) (src : Source) :
    (x.mapSource g).get src = g src (x.get src) := by
  cases src <;> simp [Sources.mapSource, Sources.get]

theorem Five.ext_get {α : Type} {x y : Five α} (h : ∀ k, x.get k = y.get k) : x = y := by
  obtain ⟨a, b, c, d, e⟩ := x
  obtain ⟨a', b', c', d', e'⟩ := y
  have h1 := h .swing
  have h2 := h .lift
  have h3 := h .pan
  have h4 := h .tilt
  have h5 := h .roll
  simp only [Five.get] at h1 h2 h3 h4 h5
  subst h1 h2 h3 h4 h5
  rfl

theorem Sources.ext_get {α : Type} {x y : Sources α} (h : ∀ src, x.get src = y.get src) : x = y := by
  have hf : x.feedbackStale = y.feedbackStale := Five.ext_get (fun k => h (.feedbackStale k))
  have hp : x.pinned = y.pinned := Five.ext_get (fun k => h (.pinned k))
  have hs : x.saturated = y.saturated := Five.ext_get (fun k => h (.saturated k))
  have hd : x.driveFault = y.driveFault := Five.ext_get (fun k => h (.driveFault k))
  have h0 := h .test
  have h1 := h .kill
  have h2 := h .linkSilent
  have h3 := h .horizonCoast
  have h4 := h .baseStale
  have h5 := h .storeParity
  cases x; cases y
  simp only [Sources.get] at *
  simp_all

theorem mem_allSources (src : Source) : src ∈ allSources := by
  cases src <;> first | decide | (next k => cases k <;> decide)

/-- The truths are judged exactly when every source's record of its condition is the truth that the state presents. -/
theorem judged_iff (s : State) :
    Judged s ↔ ∀ src, ((s.source src).truth = true → conditionTruth s src = true) ∧
      (conditionTruth s src = true → (s.source src).truth = true) := by
  have hdrop : s.dropFallen = s ↔ ∀ src, (s.source src).truth = true → conditionTruth s src = true := by
    constructor
    · intro h src ht
      have hx : fallenSource s src (s.source src) = s.source src := by
        have := congrArg (fun t : State => t.source src) h
        simpa [State.dropFallen, State.source] using this
      unfold fallenSource at hx
      by_contra hc
      rw [if_pos (by simpa [ht] using hc)] at hx
      have := congrArg SourceState.truth hx
      simp [ht] at this
    · intro h
      have hx : s.alc.sources.mapSource (fallenSource s) = s.alc.sources := by
        refine Sources.ext_get (fun src => ?_)
        rw [Sources.get_mapSource]
        unfold fallenSource
        rw [if_neg]
        simp only [Bool.and_eq_true, Bool.not_eq_true', not_and, Bool.not_eq_false]
        exact h src
      unfold State.dropFallen
      rw [hx]
  have hrise : risings s = [] ↔ ∀ src, conditionTruth s src = true → (s.source src).truth = true := by
    unfold risings risen
    rw [List.filter_eq_nil_iff]
    simp [mem_allSources]
  rw [Judged, hdrop, hrise]
  exact ⟨fun h src => ⟨h.1 src, h.2 src⟩, fun h => ⟨fun src => (h src).1, fun src => (h src).2⟩⟩

@[simp] theorem source_setSource (s : State) (src j : Source) (x : SourceState) :
    (s.setSource src x).source j = if j = src then x else s.source j := Sources.get_set _ _ _ _

theorem conditionTruth_setSource (s : State) (src j : Source) (x : SourceState) :
    conditionTruth (s.setSource src x) j = conditionTruth s j := conditionTruth_alc s _ j

@[simp] theorem source_recordRise (s : State) (src j : Source) :
    (s.recordRise src).source j = if j = src then { s.source src with truth := true } else s.source j := source_setSource _ _ _ _

theorem conditionTruth_recordRises (l : List Source) (s : State) (src : Source) :
    conditionTruth (l.foldl State.recordRise s) src = conditionTruth s src :=
  keeps_foldl (P := fun t => conditionTruth t src = conditionTruth s src)
    (fun _ _ h => (conditionTruth_setSource _ _ _ _).trans h) l s rfl

/-- The sources that rose are recorded as true; the others' records stay. -/
theorem source_recordRises (l : List Source) (s : State) (src : Source) :
    (l.foldl State.recordRise s).source src = if src ∈ l then { s.source src with truth := true } else s.source src := by
  induction l generalizing s with
  | nil => rfl
  | cons a l ih =>
    rw [List.foldl_cons, ih]
    by_cases hl : src ∈ l <;> by_cases ha : src = a
    all_goals simp [hl, ha]

theorem source_dropFallen (s : State) (src : Source) : s.dropFallen.source src = fallenSource s src (s.source src) :=
  Sources.get_mapSource _ _ _

theorem conditionTruth_dropFallen (s : State) (src : Source) : conditionTruth s.dropFallen src = conditionTruth s src :=
  conditionTruth_alc s _ src

theorem mem_risings (s : State) (src : Source) : src ∈ risings s ↔ conditionTruth s src = true ∧ (s.source src).truth = false := by
  simp [risings, risen, mem_allSources]

theorem fallenSource_truth (s : State) (src : Source) (x : SourceState) :
    (fallenSource s src x).truth = (x.truth && conditionTruth s src) := by
  unfold fallenSource
  split
  · next h =>
    simp only [Bool.and_eq_true, Bool.not_eq_true'] at h
    simp [h]
  · next h => cases ht : x.truth <;> simp_all

/-- A judging records every truth as the state presents it (R66, R140). -/
theorem truth_judge (s : State) (src : Source) : (s.judge.1.source src).truth = conditionTruth s src := by
  change (((risings s.dropFallen).foldl State.recordRise s.dropFallen).source src).truth = _
  rw [source_recordRises, source_dropFallen]
  have htruth := fallenSource_truth s src (s.source src)
  split
  · next h => exact ((conditionTruth_dropFallen s src).symm.trans ((mem_risings _ _).mp h).1).symm
  · next h =>
    rw [mem_risings, conditionTruth_dropFallen, source_dropFallen, htruth] at h
    rw [htruth]
    cases hc : conditionTruth s src <;> simp_all

theorem conditionTruth_judge (s : State) (src : Source) : conditionTruth s.judge.1 src = conditionTruth s src :=
  (conditionTruth_recordRises _ _ _).trans (conditionTruth_dropFallen s src)

theorem judged_judge (s : State) : Judged s.judge.1 := by
  rw [judged_iff]
  intro src
  rw [truth_judge, conditionTruth_judge]
  exact ⟨id, id⟩

theorem judge_eq (s : State) : s.judge.1 = { s with alc := { s.alc with sources := s.judge.1.alc.sources } } := by
  have hrises (l : List Source) (t : State) (h : ∃ x, t = { s with alc := { s.alc with sources := x } }) :
      ∃ x, l.foldl State.recordRise t = { s with alc := { s.alc with sources := x } } :=
    keeps_foldl (P := fun t => ∃ x, t = { s with alc := { s.alc with sources := x } }) (fun t src ⟨x, hx⟩ => ⟨_, by rw [hx]; rfl⟩) l t h
  obtain ⟨x, hx⟩ := hrises (risings s.dropFallen) s.dropFallen ⟨_, rfl⟩
  have hjudge : s.judge.1 = { s with alc := { s.alc with sources := x } } := hx
  rw [hjudge]

theorem takings_judge (s : State) : takings s.judge.1 = takings s := by rw [judge_eq]; rfl

theorem headMoves_judge (s : State) : headMoves s.judge.1 = headMoves s := by rw [judge_eq]; rfl

/-- The record of a truth stays when a source becomes pending. -/
theorem truth_markDue (s : State) (d : Due) (src : Source) : ((s.markDue d).source src).truth = (s.source src).truth := by
  cases d <;> simp only [State.markDue, source_setSource] <;> split <;> simp_all

theorem conditionTruth_markDue (s : State) (d : Due) (src : Source) : conditionTruth (s.markDue d) src = conditionTruth s src := by
  cases d <;> exact conditionTruth_setSource _ _ _ _

theorem conditionTruth_choose (s : State) (n : Nat) (src : Source) : conditionTruth (s.choose n).2 src = conditionTruth s src := by
  rw [choose_eq]
  cases src <;> rfl

theorem source_choose (s : State) (n : Nat) (src : Source) : (s.choose n).2.source src = s.source src := by
  rw [choose_eq]
  rfl

theorem judged_markDue {s : State} (h : Judged s) (n : Nat) (d : Due) : Judged ((s.choose n).2.markDue d) := by
  rw [judged_iff] at h ⊢
  intro src
  rw [truth_markDue, source_choose, conditionTruth_markDue, conditionTruth_choose]
  exact h src

/-- What a settling has left to do, as a bound on its moves: each move of the head and each taking can let every source rise. -/
def settleWork (w : Waiting) (s : State) : Nat := 27 * (headMoves s + takings s) + (w.own.length + w.due.length)

/-- A taking uses up one of the levels (R146). -/
theorem takings_arbitrate {s t : State} (h : s.arbitrate = some t) : takings t < takings s ∧ headMoves t ≤ headMoves s := by
  unfold takings
  rcases arbitrate_cases h with ⟨h2, src, -, rfl⟩ | ⟨h2, h1, -, src, -, rfl⟩
  · refine ⟨?_, (alertWork_take s .two src).moves⟩
    rw [take_alc]
    simp [h2]
  · refine ⟨?_, (alertWork_take s .one src).moves⟩
    rw [take_alc]
    simp [h2, h1]

theorem takings_headStep {s t : State} (h : s.headStep = some t) : takings t = takings s := by
  unfold takings
  rw [(headStep_work h).1.alc]

/-- One due source chosen: it becomes pending, the others wait on. -/
theorem pickDue_moves {s : State} (h : Judged s) (d : Due) (ds : List Due) :
    let p := s.pickDue d ds
    p.2.1.length + 1 = (d :: ds).length ∧ Judged (p.2.2.markDue p.1) ∧ headMoves (p.2.2.markDue p.1) = headMoves s ∧
      takings (p.2.2.markDue p.1) = takings s := by
  have hlt : (s.choose (ds.length + 1)).1 < (d :: ds).length := by simpa using choose_lt s (Nat.succ_pos ds.length)
  have hlen : ((d :: ds).eraseIdx (s.choose (ds.length + 1)).1).length + 1 = (d :: ds).length := by
    rw [List.length_eraseIdx_of_lt hlt]
    rfl
  have hmark (t : State) (x : Due) : headMoves (t.markDue x) = headMoves t ∧ takings (t.markDue x) = takings t := by
    cases x <;> exact ⟨rfl, rfl⟩
  have hchoose : headMoves (s.choose (ds.length + 1)).2 = headMoves s ∧ takings (s.choose (ds.length + 1)).2 = takings s := by
    rw [choose_eq]; exact ⟨rfl, rfl⟩
  exact ⟨hlen, judged_markDue h _ _, (hmark _ _).1.trans hchoose.1, (hmark _ _).2.trans hchoose.2⟩

/-- A move of the settling either marks one waiting source, from which nothing rises, or uses up a taking or a move of the head. -/
theorem settleStep_progress {w w' : Waiting} {s t : State} (hj : Judged s) (h : settleStep w s = some (w', t)) :
    (Judged t ∧ w'.own.length + w'.due.length < w.own.length + w.due.length ∧ headMoves t = headMoves s ∧ takings t = takings s) ∨
      (w' = w ∧ headMoves t + takings t < headMoves s + takings s) := by
  have hhead {u : State} (hu : s.headStep = some u) : headMoves u + takings u < headMoves s + takings s := by
    have hlt := (headStep_work hu).2
    have he := takings_headStep hu
    omega
  unfold settleStep at h
  split at h
  · next u hu =>
    obtain ⟨rfl, rfl⟩ := Prod.mk.inj (Option.some.inj h)
    have htake := takings_arbitrate hu
    exact .inr ⟨rfl, by omega⟩
  · split at h
    · next d ds hown =>
      obtain ⟨rfl, rfl⟩ := Prod.mk.inj (Option.some.inj h)
      obtain ⟨hlen, hrest⟩ := pickDue_moves hj d ds
      refine .inl ⟨hrest.1, ?_, hrest.2⟩
      rw [hown]
      dsimp only
      omega
    · split at h
      · next u _ hu =>
        obtain ⟨rfl, rfl⟩ := Prod.mk.inj (Option.some.inj h)
        exact .inr ⟨rfl, hhead hu⟩
      · unfold dueStep at h
        split at h
        · next d ds hdue =>
          obtain ⟨rfl, rfl⟩ := Prod.mk.inj (Option.some.inj h)
          obtain ⟨hlen, hrest⟩ := pickDue_moves hj d ds
          refine .inl ⟨hrest.1, ?_, hrest.2⟩
          rw [hdue]
          dsimp only
          omega
        · obtain ⟨u, hu, he⟩ := Option.map_eq_some_iff.mp h
          obtain ⟨rfl, rfl⟩ := Prod.mk.inj he
          exact .inr ⟨rfl, hhead hu⟩

theorem length_judged (w : Waiting) (q : State × List Source) :
    (w.judged q).own.length ≤ q.2.length + w.own.length ∧ (w.judged q).due.length ≤ w.due.length := by
  refine ⟨(List.length_filter_le _ _).trans ?_, List.length_filter_le _ _⟩
  rw [List.length_append, List.length_map]

/-- Each move of the settling, with the judging after it, leaves less to do. -/
theorem settleWork_step {w w' : Waiting} {s t : State} (hj : Judged s) (h : settleStep w s = some (w', t)) :
    settleWork (w'.judged t.judge) t.judge.1 < settleWork w s := by
  obtain ⟨hown, hdue⟩ := length_judged w' t.judge
  unfold settleWork
  rw [headMoves_judge, takings_judge]
  rcases settleStep_progress hj h with ⟨ht, hlt, hm, hk⟩ | ⟨rfl, hlt⟩
  · have hnone : t.judge.2.length = 0 := by rw [judge_atRest ht.1 ht.2]; rfl
    omega
  · have hrise : t.judge.2.length ≤ 26 := length_risings_le _
    omega

/-- With moves enough for what is left to do, the settling comes to rest. -/
theorem atRest_settleLoop (n : Nat) (w : Waiting) {s : State} (hj : Judged s) (hn : settleWork w s ≤ n) : AtRest (settleLoop n w s) := by
  have hrest {v : Waiting} {u : State} (hu : Judged u) (hstep : settleStep v u = none) : AtRest u := by
    obtain ⟨ha, -, -, hh⟩ := (settleStep_none_iff v u).mp hstep
    exact ⟨hu.1, hu.2, ha, hh⟩
  induction n generalizing w s with
  | zero =>
    refine hrest (v := w) hj (Option.eq_none_iff_forall_ne_some.mpr fun p hp => ?_)
    have hless := settleWork_step (w' := p.1) (t := p.2) hj hp
    omega
  | succ n ih =>
    unfold settleLoop
    split
    · next p hp =>
      have hless := settleWork_step (w' := p.1) (t := p.2) hj hp
      exact ih _ (judged_judge _) (by omega)
    · next hnone => exact hrest hj hnone

/-- A settling ends at rest: its bound on the moves is never reached, with at most 27 sources left to become pending by the event. -/
theorem atRest_settle (s : State) {due : List Due} (h : due.length ≤ 27) : AtRest (s.settle due) := by
  refine atRest_settleLoop _ _ (judged_judge s) ?_
  have hwait : (stillDues s.judge.1 (s.judge.2.map Due.condition ++ due)).length ≤ 26 + 27 := by
    refine (List.length_filter_le _ _).trans ?_
    rw [List.length_append, List.length_map]
    have hrise : s.judge.2.length ≤ 26 := length_risings_le _
    omega
  have htakings : takings s.judge.1 ≤ 2 := by
    unfold takings
    have h1 := Bool.toNat_le (!s.judge.1.alc.inService1)
    have h2 := Bool.toNat_le (!s.judge.1.alc.inService2)
    omega
  have hmoves : headMoves s.judge.1 ≤ 2 * s.ms.queue.length := by rw [headMoves_judge]; exact Nat.sub_le _ _
  unfold settleWork settleFuel
  simp only [List.length_nil, Nat.zero_add]
  omega

end Sys2Proof.Machine
end

section
/-! PROOFS. What being at rest depends on, and that every step from rest ends at rest. -/

namespace Sys2Proof.Machine

/-! ### What the truths and the head's moves depend on -/

/-- The alert conditions see the same of the axis. -/
structure SameView (a b : AxisRec) : Prop where
  mode : b.mode = a.mode := by rfl
  coastCount : b.coastCount = a.coastCount := by rfl
  pinCount : b.pinCount = a.pinCount := by rfl
  satCount : b.satCount = a.satCount := by rfl
  coastLimit : b.active.coastLimit = a.active.coastLimit := by rfl
  kf : b.active.kf = a.active.kf := by rfl
  pinLimit : b.active.pinLimit = a.active.pinLimit := by rfl
  satLimit : b.active.satLimit = a.active.satLimit := by rfl

theorem SameView.refl (a : AxisRec) : SameView a a := {}

theorem QuietAxis.view {a b : AxisRec} (h : QuietAxis a b) : SameView a b where
  mode := h.mode
  coastCount := h.counts.1
  pinCount := h.counts.2.1
  satCount := h.counts.2.2
  coastLimit := by rw [h.active]
  kf := by rw [h.active]
  pinLimit := by rw [h.active]
  satLimit := by rw [h.active]

/-- The alert conditions see the same of the state. -/
structure SameTruths (s t : State) : Prop where
  kill : t.killAsserted = s.killAsserted := by rfl
  silence : t.cl.silence = s.cl.silence := by rfl
  ports : PortsChange s.si t.si := by exact ⟨fun _ => rfl, fun _ => rfl⟩
  axes : ∀ k, SameView (s.axis k) (t.axis k) := by exact fun k => .refl _

theorem SameTruths.truth {s t : State} (h : SameTruths s t) (src : Source) : conditionTruth t src = conditionTruth s src := by
  obtain ⟨hkill, hsilence, ⟨hsen, henc⟩, haxes⟩ := h
  have hcoasts : coasts t = coasts s := by
    funext k
    simp only [coasts, (haxes k).mode, (haxes k).coastLimit, (haxes k).coastCount]
  have huses : usesBase t = usesBase s := by
    funext k
    simp only [usesBase, (haxes k).mode, (haxes k).kf]
  cases src with
  | kill => exact hkill
  | linkSilent => simp only [conditionTruth, hsilence]
  | horizonCoast => simp only [conditionTruth, hcoasts]
  | baseStale => simp only [conditionTruth, huses, hsen]
  | feedbackStale k =>
    have hstale : feedbackStaleness t k = feedbackStaleness s k := by unfold feedbackStaleness; rw [hsen, henc]
    simp only [conditionTruth, hstale, (haxes k).mode]
  | pinned k => simp only [conditionTruth, (haxes k).mode, (haxes k).pinLimit, (haxes k).pinCount]
  | saturated k => simp only [conditionTruth, (haxes k).mode, (haxes k).satLimit, (haxes k).satCount]
  | _ => rfl

/-- The head stands still when progress is not allowed, or when it is neither PENDING nor waiting for what has come about. -/
theorem headStep_none_iff (s : State) :
    s.headStep = none ↔ progress s = true → ∀ e rest, s.ms.queue = e :: rest →
      s.ms.phase ≠ .pending ∧
      (∀ left mask any consume timeout, s.ms.phase = .waitingCue left → e.body = .wait mask any consume timeout →
        waitHolds s.ms.cues mask any = false) ∧
      (∀ aborted, s.ms.phase ≠ .waitingSegments 0 aborted) := by
  constructor
  · intro h hp e rest hq
    refine ⟨fun hph => ?_, fun left mask any consume timeout hph hb => ?_, fun aborted hph => ?_⟩
    · simp [State.headStep, hp, hq, hph] at h
    · simpa [State.headStep, hp, hq, hph, hb] using h
    · simp [State.headStep, hp, hq, hph] at h
  · intro h
    refine Option.eq_none_iff_forall_ne_some.mpr fun t ht => ?_
    obtain ⟨hp, e, rest, hq, hcase⟩ := headStep_cases ht
    obtain ⟨hpending, hcue, hseg⟩ := h hp e rest hq
    rcases hcase with ⟨hph, -⟩ | ⟨left, mask, any, consume, timeout, hph, hb, hw, -⟩ | ⟨aborted, hph, -⟩
    · exact hpending hph
    · rw [hcue left mask any consume timeout hph hb] at hw
      cases hw
    · exact hseg aborted hph

/-- The head of the queue sees the same. -/
structure SameHead (s t : State) : Prop where
  queue : t.ms.queue = s.ms.queue := by rfl
  phase : t.ms.phase = s.ms.phase := by rfl
  cues : t.ms.cues = s.ms.cues := by rfl
  progress : progress t = progress s := by rfl

theorem SameHead.headStep_none {s t : State} (h : SameHead s t) (hs : s.headStep = none) : t.headStep = none := by
  rw [headStep_none_iff] at hs ⊢
  rw [h.queue, h.phase, h.cues, h.progress]
  exact hs

theorem firstWaiting_of_sources {s t : State} (h : t.alc.sources = s.alc.sources) (l : Level) : firstWaiting t l = firstWaiting s l := by
  unfold firstWaiting State.source
  rw [h]

theorem judged_of_same {s t : State} (hsources : t.alc.sources = s.alc.sources) (htruths : SameTruths s t) (h : Judged s) : Judged t := by
  rw [judged_iff] at h ⊢
  intro src
  unfold State.source at h ⊢
  rw [htruths.truth, hsources]
  exact h src

/-- What being at rest depends on, beside the head. -/
theorem AtRest.of_headStep {s t : State} (h : AtRest s) (hhead : t.headStep = none) (htruths : SameTruths s t)
    (hsources : t.alc.sources = s.alc.sources := by rfl) (h1 : t.alc.inService1 = s.alc.inService1 := by rfl)
    (h2 : t.alc.inService2 = s.alc.inService2 := by rfl) : AtRest t := by
  obtain ⟨hd, hr, ha, -⟩ := h
  obtain ⟨hd', hr'⟩ := judged_of_same hsources htruths ⟨hd, hr⟩
  refine ⟨hd', hr', ?_, hhead⟩
  rw [arbitrate_none_iff, firstWaiting_of_sources hsources, firstWaiting_of_sources hsources, h1, h2, ← arbitrate_none_iff]
  exact ha

theorem AtRest.same {s t : State} (h : AtRest s) (htruths : SameTruths s t) (hhead : SameHead s t)
    (hsources : t.alc.sources = s.alc.sources := by rfl) (h1 : t.alc.inService1 = s.alc.inService1 := by rfl)
    (h2 : t.alc.inService2 = s.alc.inService2 := by rfl) : AtRest t :=
  h.of_headStep (hhead.headStep_none h.2.2.2) htruths hsources h1 h2

theorem AtRest.offerUnasked {s : State} (h : AtRest s) (f : Frame) : AtRest (s.offerUnasked f) := by
  rw [offerUnasked_eq]
  refine h.same { silence := ?_ } {}
  show (s.cl.offer f).silence = _
  unfold Console.offer
  split <;> rfl

/-! ### The operations that end an event without a settling -/

/-- After a reset no condition is true and no entry waits. -/
theorem atRest_blocksReset (s : State) (cause : ResetCause) (pins : Pins) : AtRest (s.blocksReset cause pins) := by
  have hfalse (src : Source) : conditionTruth (s.blocksReset cause pins) src = false := by
    cases src with
    | feedbackStale k => cases k <;> rfl
    | pinned k => cases k <;> rfl
    | saturated k => cases k <;> rfl
    | _ => rfl
  have hclear (src : Source) : ((s.blocksReset cause pins).source src).truth = false := by
    cases src with
    | feedbackStale k => cases k <;> rfl
    | pinned k => cases k <;> rfl
    | saturated k => cases k <;> rfl
    | driveFault k => cases k <;> rfl
    | _ => rfl
  have hjudged : Judged (s.blocksReset cause pins) := by
    rw [judged_iff]
    intro src
    rw [hfalse, hclear]
    exact ⟨id, id⟩
  have hwaiting (l : Level) : firstWaiting (s.blocksReset cause pins) l = none :=
    (firstWaiting_of_sources (s := State.reset) rfl l).trans (by cases l <;> decide)
  refine ⟨hjudged.1, hjudged.2, ?_, rfl⟩
  exact (arbitrate_none_iff _).mpr (.inr ⟨hwaiting _, .inr (hwaiting _)⟩)

theorem atRest_settleNow (s : State) : AtRest (s.settle []) := atRest_settle s (Nat.zero_le _)

theorem AtRest.assertKill {s : State} (h : AtRest s) : AtRest s.assertKill := by
  unfold State.assertKill
  dsimp only
  split_ifs
  · exact h
  · exact atRest_settleNow _
  · exact atRest_settleNow _

theorem atRest_resolve2 (s : State) : AtRest s.resolve2 := by
  unfold State.resolve2
  dsimp only
  split_ifs
  · exact atRest_settleNow _
  · exact atRest_settleNow _

theorem AtRest.flush {s : State} (h : AtRest s) : AtRest s.flush :=
  h.of_headStep ((headStep_none_iff _).mpr fun _ _ _ hq => by cases hq) {}

theorem AtRest.pause {s : State} (h : AtRest s) : AtRest (s.setRunning false) := h.of_headStep (headStep_none_of_no_progress rfl) {}

/-- Fewer sources are pending after a cancel (R156). -/
theorem AtRest.cancel {s : State} (h : AtRest s) (mask : Word) : AtRest (s.cancel mask) := by
  have hsource (src : Source) : (s.cancel mask).source src =
      if mask.getLsbD (sourceNumber src) && (s.source src).latched then { s.source src with pending := false } else s.source src :=
    Sources.get_mapSource _ _ _
  have hjudged : Judged (s.cancel mask) := by
    have hs := (judged_iff s).mp ⟨h.1, h.2.1⟩
    rw [judged_iff]
    intro src
    have htruth : ((s.cancel mask).source src).truth = (s.source src).truth := by rw [hsource]; split <;> rfl
    have hcond : conditionTruth (s.cancel mask) src = conditionTruth s src := conditionTruth_alc s _ src
    rw [htruth, hcond]
    exact hs src
  have hnone (l : Level) (hl : firstWaiting s l = none) : firstWaiting (s.cancel mask) l = none := by
    unfold firstWaiting at hl ⊢
    rw [List.find?_eq_none] at hl ⊢
    intro src hm
    have hsrc := hl src hm
    rw [hsource]
    split
    · simp
    · exact hsrc
  refine ⟨hjudged.1, hjudged.2, ?_, SameHead.headStep_none (s := s) (t := s.cancel mask) {} h.2.2.2⟩
  rw [arbitrate_none_iff]
  rcases (arbitrate_none_iff s).mp h.2.2.1 with h2 | ⟨hw2, h1 | hw1⟩
  · exact .inl h2
  · exact .inr ⟨hnone _ hw2, .inl h1⟩
  · exact .inr ⟨hnone _ hw2, .inr (hnone _ hw1)⟩

theorem sameView_setAxis {s : State} {k : Axis} {a : AxisRec} (h : SameView (s.axis k) a) (j : Axis) :
    SameView (s.axis j) ((s.setAxis k a).axis j) := by
  rw [State.axis_setAxis]
  split
  · subst j; exact h
  · exact .refl _

theorem AtRest.setActiveD {s : State} (h : AtRest s) (k : Axis) (d : Nat) : AtRest (s.setActiveD k d) :=
  h.same { axes := sameView_setAxis {} } {}

theorem AtRest.abortSweep {s : State} (h : AtRest s) : AtRest s.abortSweep :=
  AtRest.offerUnasked ((h.setActiveD s.sw.axis s.sw.savedD).same {} {}) _

theorem AtRest.tick {s : State} (h : AtRest s) : AtRest s.tick := by
  refine h.same { ports := ⟨fun u => ?_, fun k => ?_⟩ } {}
  · simp only [State.tick, Three.get_mapUnit]; split <;> rfl
  · simp only [State.tick, Five.get_mapAxis]; split <;> rfl

/-- PARK empties the assemblers and makes no port stale (R16). -/
theorem portsChange_close (x : SensorIntake) : PortsChange x x.close where
  sen v := by cases v <;> rfl
  enc k := by cases k <;> rfl

/-- Every part of an event that ends with no settling leaves the part at rest; a settling ends at rest whatever goes before. -/
theorem upheld_atRest : Upheld (fun _ => True) AtRest AtRest where
  within _ := trivial
  final h := h
  settle _ hd _ := atRest_settle _ hd
  choose {s} n h := by
    rw [choose_eq]
    exact h.same {} {}
  reset {s} cause pins _ := by
    unfold State.resetWith
    dsimp only
    split
    · exact atRest_blocksReset s cause pins
    · exact (atRest_blocksReset s cause pins).assertKill
  tick h := h.tick
  prot _ h := h.same {} {}
  trig line _ h := by cases line <;> exact h.same {} {}
  assertKill h := h.assertKill
  releaseKill {s} h := by
    unfold State.releaseKill
    split
    · exact atRest_settleNow _
    · exact h
  ports hp h := h.same { ports := hp } {}
  portsWithin _ _ := trivial
  linkHeld _ _ h := h.same {} {}
  keepReport _ _ h := h.same {} {}
  wordSent _ h := h.same {} {}
  beginFrame h := h.same {} {}
  restartFrameTimer h := h.same {} {}
  computeAxis _ _ _ := trivial
  reportSegment _ _ _ _ := trivial
  changeCues _ _ := trivial
  countFrame _ := trivial
  link hc h := h.same { silence := hc.silence } {}
  setup _ _ := trivial
  restartSilence _ := trivial
  expireSilence _ := trivial
  axes hx h := h.same { axes := fun k => (hx k).view } {}
  applyMode _ _ _ _ := trivial
  startSweep k dlo _ _ _ _ _ h := (h.setActiveD k dlo).same {} {}
  abortSweep _ h := h.abortSweep
  loadTuning _ _ := trivial
  enqueue _ _ _ := trivial
  run _ := trivial
  pause h := h.pause
  flush h := h.flush
  pages _ _ h := h.same {} {}
  loadWaypoints _ _ := trivial
  cueTable _ _ := trivial
  clearSeen h := h.same {} {}
  configure _ _ := trivial
  testMask _ _ := trivial
  cancel m h := h.cancel m
  endService1 _ := trivial
  resolve2 _ _ := atRest_resolve2 _
  store _ h := h.same {} {}
  park {s} h := h.same { ports := portsChange_close s.si } {}
  unpark _ _ := trivial
  settlingEnd {s} h := by
    unfold State.endSettling
    split
    · exact AtRest.offerUnasked (h.same {} {}) _
    · exact h
  halt {s} h := by
    unfold State.takeHalt
    split
    · exact h
    · exact h.same {} {}
  resume {s} h := by
    unfold State.takeRun
    split
    · exact h.same {} {}
    · exact h

/-- Settles O55: a settling ends at rest because each of its moves uses up a taking, a move of the head or a waiting source, and its
bound exceeds what an event can leave; what a command does without settling no condition and no head sees. -/
theorem everyStepEndsAtRest : Obligations.EveryStepEndsAtRest :=
  fun _ _ h ht => upheld_atRest.step (fun _ _ _ => h.same {} {}) h ht

end Sys2Proof.Machine
end

section
/-! PROOFS. One computation's work on its axis, with the bounds it keeps (R43), and the counting of a sweep (R110 to R112). -/

namespace Sys2Proof.Machine

/-! ### Kill settling, launch and swap -/

theorem AxisInRange.clearKill {a : AxisRec} (h : AxisInRange a) : AxisInRange (clearKill a) := by
  unfold Machine.clearKill resumeCapture
  dsimp only
  split
  · split
    · exact h.entryCapture.of_eq
    · exact h.entryCapture.of_eq
  · exact h.of_eq

theorem axisWork_settleKill (s : State) (k : Axis) : AxisWork s (s.settleKill k) := by
  have hact : AxisWork s (s.settleAwaiting k) := by
    unfold State.settleAwaiting
    split
    · exact axisWork_killAct s k
    · exact .refl s
  unfold State.settleKill
  dsimp only
  split
  · exact hact
  · exact hact.setAxis k (fun h => h.clearKill)

theorem axisWork_discardLaunch (s : State) (k : Axis) : AxisWork s (s.discardLaunch k) := by
  unfold State.discardLaunch
  split
  · exact .refl s
  · exact (axisWork_setAxis s k (fun h => h.of_eq)).trans (axisWork_reportSegment _ _ _ _)

theorem axisWork_installLaunch (s : State) (k : Axis) : AxisWork s (s.installLaunch k) := by
  unfold State.installLaunch
  split
  · exact .refl s
  · split
    · dsimp only
      split
      · exact (axisWork_setAxis s k (fun h => h.of_eq)).trans (axisWork_reportSegment _ _ _ _)
      · exact axisWork_setAxis s k (fun h => h.of_eq)
    · exact (axisWork_leaveHold s k).setAxis k (fun h => (h.passBetweenActive .move).of_eq)
    · exact axisWork_setAxis s k (fun h => (h.passBetweenActive .move).of_eq)
    · exact axisWork_setAxis s k (fun h => (h.passBetweenActive .move).of_eq)
    · exact axisWork_discardLaunch s k
    · exact axisWork_discardLaunch s k
    · exact axisWork_discardLaunch s k

theorem axisWork_launched (s : State) (k : Axis) : AxisWork s (s.launched k) := by
  unfold State.launched
  dsimp only
  split
  · exact (axisWork_settleKill s k).trans (axisWork_discardLaunch _ k)
  · exact (axisWork_settleKill s k).trans (axisWork_installLaunch _ k)

/-- A value of signed 32-bit range is kept whole by its field. -/
theorem toInt_ofInt32 {x : Int} (h : x.natAbs ≤ 2147483647) : (BitVec.ofInt 32 x).toInt = x := by
  rw [BitVec.toInt_ofInt]
  exact Int.bmod_eq_of_le (by omega) (by omega)

/-- I, uPrev and the rates are clamped to the new record's bounds (R36). -/
theorem AxisInRange.swapped {a : AxisRec} (h : AxisInRange a) : AxisInRange (swapped a) := by
  obtain ⟨-, hstaged, -⟩ := h
  have hb := Tuning.bounds_of_ok hstaged
  have himax := hb.imax
  have humax := hb.umax
  have hrmax := hb.rmax
  have hclamp (x : Int) (m : Nat) (hm : m ≤ 32767) : (half16 (clampSym x m)).toInt.natAbs ≤ m := by
    have hle := natAbs_clampSym_le x m
    rw [toInt_half16 (by omega)]
    exact hle
  have hi : (BitVec.ofInt 32 (clampSym a.i.toInt a.staged.imax)).toInt.natAbs ≤ a.staged.imax := by
    have hle := natAbs_clampSym_le a.i.toInt a.staged.imax
    rw [toInt_ofInt32 (by omega)]
    exact hle
  exact ⟨hstaged, hstaged, hi, hclamp _ _ (by omega), hclamp _ _ (by omega), hclamp _ _ (by omega)⟩

theorem axisWork_swapCheck (s : State) (k : Axis) : AxisWork s (s.swapCheck k) := by
  unfold State.swapCheck
  dsimp only
  split
  · exact axisWork_setAxis s k (fun h => h.swapped)
  · exact .refl s

/-! ### Estimation and step 5 -/

theorem jointStep_axis_inRange {s : State} {k : Axis} (h : AxisInRange (s.axis k)) : AxisInRange ((s.jointStep k).axis k) := by
  unfold State.jointStep
  dsimp only
  split
  · rw [State.axis_setAxis_same]; exact h.of_eq
  · exact h

theorem estimate_axis_same (s : State) (k : Axis) (n : Nat) :
    (s.estimate k n).axis k =
      if isHeading k then headed (s.jointStep k) k (integrated (s.jointStep k) k n)
      else leveled (s.jointStep k) k (integrated (s.jointStep k) k n) := State.axis_setAxis_same _ _ _

theorem estimate_axis_inRange {s : State} {k : Axis} (n : Nat) (h : AxisInRange (s.axis k)) : AxisInRange ((s.estimate k n).axis k) := by
  have hj := jointStep_axis_inRange h
  rw [estimate_axis_same]
  split
  · exact hj.of_eq
  · unfold leveled
    dsimp only
    split_ifs
    · exact hj.of_eq
    · exact hj.of_eq
    · exact hj.of_eq
    · exact hj.of_eq

/-- The ramp stays between the effective and the demanded rate (R52). -/
theorem rampedRate_between (a : AxisRec) :
    min a.rdEff.toInt a.rdTarget.toInt ≤ rampedRate a ∧ rampedRate a ≤ max a.rdEff.toInt a.rdTarget.toInt := by
  unfold rampedRate
  rw [clampSym_eq_max_min (Nat.cast_nonneg _)]
  omega

theorem AxisInRange.rampedRate_le {a : AxisRec} (h : AxisInRange a) : (rampedRate a).natAbs ≤ a.active.rmax := by
  obtain ⟨-, -, -, -, heff, htarget⟩ := h
  have hbetween := rampedRate_between a
  omega

theorem segmentEnded_inRange {k : Axis} {a : AxisRec} (g : Segment) (h : AxisInRange a) : AxisInRange (segmentEnded k a g) := by
  unfold segmentEnded
  split
  · exact h.of_eq
  · exact h.of_eq

theorem targetRule_inRange {k : Axis} {a : AxisRec} (n : Nat) (h : AxisInRange a) : AxisInRange (targetRule k a n).1 := by
  unfold targetRule
  split
  · have hle := h.rampedRate_le
    obtain ⟨hactive, hstaged, hi, hu, -, htarget⟩ := h
    have hmax := (Tuning.bounds_of_ok hactive).rmax
    refine ⟨hactive, hstaged, hi, hu, ?_, htarget⟩
    rw [toInt_half16 (by omega)]
    exact hle
  · exact h.of_eq
  · unfold moveStep
    split
    · exact h
    · dsimp only
      split
      · exact segmentEnded_inRange _ h.of_eq
      · exact h.of_eq
  · exact h

theorem updatedIntegrator_le {a : AxisRec} (h : AxisInRange a) (e : Int) : (updatedIntegrator a e).toInt.natAbs ≤ a.active.imax := by
  obtain ⟨hactive, -, hi, -⟩ := h
  have hmax := (Tuning.bounds_of_ok hactive).imax
  unfold updatedIntegrator
  split
  · exact hi
  · have hle := natAbs_clampSym_le (a.i.toInt + e) a.active.imax
    rw [toInt_ofInt32 (by omega)]
    exact hle

theorem umaxEff_bounds {a : AxisRec} (h : AxisInRange a) : 0 ≤ umaxEff a ∧ umaxEff a ≤ a.active.umax := by
  have hdamp := (Tuning.bounds_of_ok h.1).udamp
  unfold umaxEff
  split <;> omega

/-- A demand within Umax is sent whole or as 0 (R61). -/
theorem pinned_uPrev_le {a : AxisRec} {u : Int} {m : Nat} (hm : m ≤ 32767) (hu : u.natAbs ≤ m) : (pinned a u).uPrev.toInt.natAbs ≤ m := by
  rw [pinned_uPrev_toInt a (by omega)]
  split <;> omega

theorem natAbs_clampSym_le_of_nonneg {m : Int} (h : 0 ≤ m) (x : Int) : (clampSym x m).natAbs ≤ m.toNat := by
  rw [clampSym_eq_max_min h]
  omega

theorem outputChain_inRange {ring : List Triple} {k : Axis} {a : AxisRec} (g rd : Int) (h : AxisInRange a) :
    AxisInRange (outputChain ring k a g rd) := by
  have hi := updatedIntegrator_le h (angleError a.t a.w)
  obtain ⟨hlow, hhigh⟩ := umaxEff_bounds h
  obtain ⟨hactive, hstaged, -, -, heff, htarget⟩ := h
  have humax := (Tuning.bounds_of_ok hactive).umax
  refine ⟨hactive, hstaged, hi, ?_, heff, htarget⟩
  have hle := natAbs_clampSym_le_of_nonneg hlow (clampInt (clampSym (chainDemand ring k a g rd) (umaxEff a))
    (a.uPrev.toInt - a.active.l) (a.uPrev.toInt + a.active.l))
  have hslewed : (slewed (clampSym (chainDemand ring k a g rd) (umaxEff a)) a.uPrev.toInt a.active.l (umaxEff a)).natAbs ≤ a.active.umax := by unfold slewed; omega
  exact pinned_uPrev_le (m := a.active.umax) (by omega) hslewed

theorem safeDriven_inRange {a : AxisRec} (h : AxisInRange a) : AxisInRange (safeDriven a) := by
  obtain ⟨hactive, hstaged, hi, -, heff, htarget⟩ := h
  have hb := Tuning.bounds_of_ok hactive
  have humax := hb.umax
  have husafe := hb.usafe
  have hle := natAbs_safeDemand_le a
  exact ⟨hactive, hstaged, hi, pinned_uPrev_le (m := a.active.umax) (by omega) (by omega), heff, htarget⟩

theorem safeBraked_inRange {a : AxisRec} (h : AxisInRange a) : AxisInRange (safeBraked a) := by
  obtain ⟨hactive, hstaged, hi, -, heff, htarget⟩ := h
  exact ⟨hactive, hstaged, hi, Nat.zero_le _, heff, htarget⟩

theorem modeWork_inRange {s : State} {k : Axis} (g : Int) (n : Nat) (held : Bool) (h : AxisInRange (s.axis k)) :
    AxisInRange (modeWork s k g n held).axis := by
  have hactive : AxisInRange (activeWork s.le.ring k (s.axis k) g n).axis := outputChain_inRange _ _ (targetRule_inRange n h)
  unfold modeWork
  dsimp only
  split
  · exact h.of_eq
  · split
    · exact h
    · exact h
    · split
      · exact safeDriven_inRange h
      · exact safeBraked_inRange h
    all_goals exact hactive

theorem worked_inRange {s : State} {k : Axis} (n : Nat) (held : Bool) (h : InRange s) : InRange (s.worked k n held) := by
  rw [inRange_iff] at h ⊢
  obtain ⟨hx, hw⟩ := h
  refine ⟨fun j => ?_, by rw [worked_sw]; exact hw⟩
  by_cases hj : j = k
  · subst hj
    unfold State.worked
    rw [State.axis_setAxis_same]
    exact (modeWork_inRange _ _ _ (estimate_axis_inRange n (hx j))).of_eq
  · rw [worked_axis_other s n held hj]
    exact hx j

/-! ### The counting of a sweep -/

/-- What a counted computation does: the D of the sweep's axis, the sweep's own registers, a notice at its end. -/
structure SweepCount (s t : State) : Prop where
  outside : SameOutside s t
  noticed : Noticed s.le.frameNo s.cl t.cl
  alc : t.alc = s.alc
  ms : t.ms = s.ms
  results : t.sw.results.length = s.sw.results.length
  inRange : InRange s → InRange t

theorem SweepCount.trans {s t u : State} (h : SweepCount s t) (g : SweepCount t u) : SweepCount s u where
  outside := h.outside.trans g.outside
  noticed := by
    have hle := h.outside.2.1
    exact h.noticed.trans (hle ▸ g.noticed)
  alc := g.alc.trans h.alc
  ms := g.ms.trans h.ms
  results := g.results.trans h.results
  inRange hr := g.inRange (h.inRange hr)

theorem AxisWork.sweepCount {s t : State} (h : AxisWork s t) (hms : t.ms = s.ms) : SweepCount s t :=
  ⟨h.outside, h.noticed, h.alc, hms, by rw [h.results], h.inRange⟩

theorem sweepCount_sw {s : State} {w : Sweep} (hlen : w.results.length = s.sw.results.length)
    (hr : InRange s → w.running = true → w.dhi ≤ 63 ∧ w.savedD ≤ 63 ∧ w.currentD ≤ 63) : SweepCount s { s with sw := w } :=
  ⟨.of_cl rfl rfl rfl rfl rfl rfl rfl rfl, .refl _ _, rfl, rfl, hlen, fun h => ⟨h.1, hr h⟩⟩

/-- The good set lies within Dlo..Dhi (R112). -/
theorem le_of_mem_goodSet {w : Sweep} {d : Nat} (h : d ∈ goodSet w) : w.dlo ≤ d ∧ d ≤ w.dhi := by
  unfold goodSet at h
  simp only [List.mem_filter, List.mem_range, Bool.and_eq_true, decide_eq_true_eq] at h
  omega

theorem sweepCount_evaluateSweep {s : State} (hrun : s.sw.running = true) : SweepCount s s.evaluateSweep := by
  unfold State.evaluateSweep
  split
  · exact ((axisWork_setActiveD s s.sw.axis (fun hr => (hr.2 hrun).2.1)).trans (axisWork_endSweep _ _ _ _ _)).sweepCount (by
      rw [endSweep_eq]; rfl)
  · next first rest hgood =>
    have hfirst := (le_of_mem_goodSet (hgood ▸ List.mem_cons_self : first ∈ goodSet s.sw)).2
    have hlast : (first :: rest).getLastD first ≤ s.sw.dhi := by
      refine (le_of_mem_goodSet (w := s.sw) ?_).2
      rw [hgood, List.getLastD_eq_getLast?, List.getLast?_eq_some_getLast (List.cons_ne_nil _ _)]
      exact List.getLast_mem _
    have hmid : InRange s → (first + (first :: rest).getLastD first) / 2 ≤ 63 := fun hr => by
      have hdhi := (hr.2 hrun).1
      omega
    have hactive := axisWork_setActiveD s s.sw.axis hmid
    have hstaged := axisWork_setStagedD (s.setActiveD s.sw.axis ((first + (first :: rest).getLastD first) / 2)) s.sw.axis
      (d := (first + (first :: rest).getLastD first) / 2) (fun hr => by have hdhi : s.sw.dhi ≤ 63 := (hr.2 hrun).1; omega)
    exact ((hactive.trans hstaged).trans (axisWork_endSweep _ _ _ _ _)).sweepCount (by rw [endSweep_eq]; rfl)

theorem sweepCount_completeWindow {s : State} (hrun : s.sw.running = true) : SweepCount s s.completeWindow := by
  have hresult : SweepCount s { s with sw := { s.sw with results := s.sw.results.set s.sw.currentD (wordOfNat s.sw.sum) } } :=
    sweepCount_sw List.length_set (fun hr => hr.2)
  unfold State.completeWindow
  dsimp only
  split
  · next hlt =>
    refine (hresult.trans ((axisWork_setActiveD _ s.sw.axis (d := s.sw.currentD + 1) fun hr => ?_).sweepCount rfl)).trans
      (sweepCount_sw rfl fun hr _ => ?_)
    · have hdhi : s.sw.dhi ≤ 63 := (hr.2 hrun).1
      omega
    · obtain ⟨hdhi, hsaved, -⟩ := hr.2 hrun
      exact ⟨hdhi, hsaved, Nat.le_trans hlt hdhi⟩
  · exact hresult.trans (sweepCount_evaluateSweep hrun)

theorem sweepCount_countSweep {s : State} (hrun : s.sw.running = true) (g : Int) : SweepCount s (s.countSweep g) := by
  have hsum : SweepCount s
      { s with sw := { s.sw with sum := min (s.sw.sum + g.natAbs) 4294967295, count := s.sw.count + 1 } } :=
    sweepCount_sw rfl (fun hr => hr.2)
  unfold State.countSweep
  dsimp only
  split
  · exact hsum.trans (sweepCount_completeWindow hrun)
  · exact hsum

/-! ### A computation as a whole -/

/-- What a computation does, beside the axis's own work and its word. -/
structure ComputeWork (k : Axis) (s t : State) : Prop where
  si : t.si = { s.si with enc := t.si.enc }
  enc : ∀ j, (t.si.enc.get j) = { s.si.enc.get j with newPos := (t.si.enc.get j).newPos }
  other : ∀ j, j ≠ k → t.si.enc.get j = s.si.enc.get j
  le : t.le = s.le
  killAsserted : t.killAsserted = s.killAsserted
  ps : t.ps = s.ps
  noticed : Noticed s.le.frameNo s.cl t.cl
  alc : t.alc = { s.alc with sources := t.alc.sources }
  ms : t.ms = { s.ms with phase := t.ms.phase }
  phase : t.ms.phase = s.ms.phase ∨
    (∃ o a, s.ms.phase = .waitingSegments o a) ∧ ∃ o a, t.ms.phase = .waitingSegments o a
  results : t.sw.results.length = s.sw.results.length
  inRange : InRange s → InRange t

theorem ComputeWork.trans {k : Axis} {s t u : State} (h : ComputeWork k s t) (g : ComputeWork k t u) : ComputeWork k s u where
  si := by rw [g.si, h.si]
  enc j := by rw [g.enc, h.enc]
  other j hj := (g.other j hj).trans (h.other j hj)
  le := g.le.trans h.le
  killAsserted := g.killAsserted.trans h.killAsserted
  ps := g.ps.trans h.ps
  noticed := h.noticed.trans (h.le ▸ g.noticed)
  alc := by rw [g.alc, h.alc]
  ms := by rw [g.ms, h.ms]
  phase := by
    rcases g.phase with he | ⟨hw, hu⟩
    · rw [he]; exact h.phase
    · rcases h.phase with he | ⟨hs, -⟩
      · exact .inr ⟨he ▸ hw, hu⟩
      · exact .inr ⟨hs, hu⟩
  results := g.results.trans h.results
  inRange hr := g.inRange (h.inRange hr)

theorem AxisWork.compute {s t : State} (k : Axis) (h : AxisWork s t) : ComputeWork k s t := by
  obtain ⟨hsi, hle, -, hkill, hps, -⟩ := h.outside
  exact ⟨by rw [hsi], fun j => by rw [hsi], fun j _ => by rw [hsi], hle, hkill, hps, h.noticed, by rw [h.alc], h.ms, h.phase,
    by rw [h.results], h.inRange⟩

theorem SweepCount.compute {s t : State} (k : Axis) (h : SweepCount s t) : ComputeWork k s t := by
  obtain ⟨hsi, hle, -, hkill, hps, -⟩ := h.outside
  exact ⟨by rw [hsi], fun j => by rw [hsi], fun j _ => by rw [hsi], hle, hkill, hps, h.noticed, by rw [h.alc], by rw [h.ms],
    .inl (by rw [h.ms]), h.results, h.inRange⟩

theorem computeWork_judge (k : Axis) (s : State) : ComputeWork k s s.judge.1 := by
  rw [judge_eq]
  exact ⟨rfl, fun _ => rfl, fun _ _ => rfl, rfl, rfl, rfl, .refl _ _, rfl, rfl, .inl rfl, rfl, id⟩

theorem computeWork_worked (k : Axis) (s : State) (n : Nat) (held : Bool) : ComputeWork k s (s.worked k n held) where
  si := by rw [worked_si, jointStep_eq]
  enc j := by
    rw [worked_si, jointStep_enc, Five.get_set]
    split
    · subst j; rfl
    · rfl
  other j hj := by rw [worked_si, jointStep_enc, Five.get_set_other _ _ hj]
  le := worked_le s k n held
  killAsserted := worked_killAsserted s k n held
  ps := worked_ps s k n held
  noticed := by rw [worked_cl]; exact .refl _ _
  alc := by rw [worked_alc]
  ms := by rw [worked_ms]
  phase := .inl (by rw [worked_ms])
  results := by rw [worked_sw]
  inRange := worked_inRange n held

theorem computeWork_setLink (k : Axis) (s : State) (l : DriveLink) : ComputeWork k s (s.setLink k l) :=
  ⟨rfl, fun _ => rfl, fun _ _ => rfl, rfl, rfl, rfl, .refl _ _, rfl, rfl, .inl rfl, rfl, id⟩

theorem computeWork_finished (k : Axis) (s : State) (n : Nat) (held : Bool) : ComputeWork k s (s.finished k n held) := by
  have hhanded : ComputeWork k s ((s.worked k n held).handCommand k (estimatedWork s k n held).command).1 := by
    rw [handCommand_eq]
    exact (computeWork_worked k s n held).trans (computeWork_setLink k _ _)
  unfold State.finished
  dsimp only
  split
  · next hcounts =>
    have hsweeping : sweeping (s.estimate k n) k = true := by
      unfold counts at hcounts
      simp only [Bool.and_eq_true] at hcounts
      exact hcounts.1.1.1
    have hrun := (running_of_sweeping hsweeping).1
    rw [estimate_sw] at hrun
    refine hhanded.trans ((sweepCount_countSweep ?_ _).compute k)
    rw [handCommand_eq, State.setLink_sw, worked_sw]
    exact hrun
  · exact hhanded

theorem computeWork (s : State) (k : Axis) (n : Nat) : ComputeWork k s (s.computeAxis k n).1 := by
  rw [computeAxis_eq]
  exact ((((axisWork_launched s k).compute k).trans ((axisWork_swapCheck _ k).compute k)).trans (computeWork_judge k _)).trans
    (computeWork_finished k _ _ _)

end Sys2Proof.Machine
end

section
/-! PROOFS. The sizes, the ranges and the rules that tie registers together, upheld by every part of an event and so by every step. -/

namespace Sys2Proof.Machine

/-! ### Kill assertion and RESOLVE for any such invariant -/

theorem alertWork_killHold (s : State) : AlertWork (s.setHoldKill true) s.killHold := (headWork_feedCue _ _).alert

theorem AxisWork.alert {s t : State} (h : AxisWork s t) : AlertWork s t := h.head.alert

/-- An assertion's part on one axis: its action and a BRAKE word, or the phase AWAITING (R129). -/
theorem killAxis_keeps {P : State → Prop} (work : ∀ {s t}, AxisWork s t → P s → P t) (links : ∀ {s} x, P s → P { s with dl := x })
    {s : State} (h : P s) (k : Axis) : P (s.killAxis k) := by
  unfold State.killAxis
  dsimp only
  split
  · exact links _ (work (axisWork_killAct s k) h)
  · split
    · exact work (axisWork_setAxis s k (fun ha => ha.of_eq)) h
    · exact h

theorem killAxes_keeps {P : State → Prop} (work : ∀ {s t}, AxisWork s t → P s → P t) (links : ∀ {s} x, P s → P { s with dl := x })
    {s : State} (h : P s) : P s.killAxes :=
  keeps_foldl (P := P) (fun _ k ht => killAxis_keeps work links ht k) allAxes s h

/-- What the Alert Controller's work and the kill level's writes keep, an assertion keeps; `H` holds until the level is written. -/
theorem assertKill_keeps {H P : State → Prop} (held : ∀ {s t}, AlertWork s t → H s → H t) (work : ∀ {s t}, AlertWork s t → P s → P t)
    (links : ∀ {s} x, P s → P { s with dl := x }) (kill : ∀ {s}, H s → P { s with killAsserted := true }) {s : State}
    (h : H (s.setHoldKill true)) (hs : s.killAsserted = true → P s) : P s.assertKill := by
  have hkill : P { (s.killHold.choose 2).2 with killAsserted := true } :=
    kill (held (alertWork_choose _ _) (held (alertWork_killHold s) h))
  have haxes {t : State} (ht : P t) : P t.killAxes := killAxes_keeps (fun hw => work hw.alert) links ht
  unfold State.assertKill
  dsimp only
  split_ifs with hasserted
  · exact hs hasserted
  · exact work (alertWork_settle _ _) (haxes (work (alertWork_settle _ _) hkill))
  · exact work (alertWork_settle _ _) (haxes hkill)

/-- RESOLVE(2) up to the end of level 2's service: the axes return, and what rises while the level is still in service waits (R152). -/
theorem alertWork_returned (s : State) :
    AlertWork s ((axesOf (returningAxes s)).foldl State.returnAxis s).refreshTruths := by
  have hreturn : AxisWork s ((axesOf (returningAxes s)).foldl State.returnAxis s) := by
    refine .foldl (fun t k => ?_) _ _
    unfold State.returnAxis
    split
    · exact axisWork_returnFromSafe _ _ _
    · exact .refl _
  refine hreturn.alert.trans ((alertWork_judge _).trans ?_)
  exact keeps_foldl (P := AlertWork _) (fun t src ht => ht.trans (alertWork_markDue t _)) _ _ (.refl _)

theorem resolve2_keeps {P : State → Prop} (work : ∀ {s t}, AlertWork s t → P s → P t) (service : ∀ {s}, P s → P s.endService2)
    (hold : ∀ {s}, P s → P (s.setHoldAlert false)) {s : State} (h : P s) : P s.resolve2 := by
  have hsettled := work (alertWork_settle _ []) (service (work (alertWork_returned s) h))
  unfold State.resolve2
  dsimp only
  split_ifs
  · exact hsettled
  · exact work (alertWork_settle _ _) (hold hsettled)

/-! ### Sizes (O56) -/

theorem Noticed.link {frame : Word} {c d : Console} (h : Noticed frame c d) : LinkChange c d := by
  obtain ⟨fs, -, rfl⟩ := h
  refine keeps_foldl (P := LinkChange c) (fun e f he => ?_) fs c ⟨rfl, id, id⟩
  unfold Console.offer
  split
  · next hfree => exact ⟨he.silence, he.requests, fun _ => by simp; omega⟩
  · exact ⟨he.silence, he.requests, he.txQueue⟩

/-- The sizes, read block by block. -/
structure Sizes (m : Sequencer) (c : Console) (ring : List Triple) (results : List Word) (p : Store) : Prop where
  queue : m.queue.length ≤ 32
  doneList : m.doneList.length ≤ 8
  requests : c.requests.length ≤ 4
  txQueue : c.txQueue.length ≤ 4
  ring : ring.length = 64
  waypoints : m.waypoints.length = 64
  cueSources : m.cueSources.length = 8
  results : results.length = 64
  store : p.wf = true

theorem bounded_iff (s : State) : Bounded s ↔ Sizes s.ms s.cl s.le.ring s.sw.results s.ps :=
  ⟨fun ⟨h1, h2, h3, h4, h5, h6, h7, h8, h9⟩ => ⟨h1, h2, h3, h4, h5, h6, h7, h8, h9⟩,
    fun ⟨h1, h2, h3, h4, h5, h6, h7, h8, h9⟩ => ⟨h1, h2, h3, h4, h5, h6, h7, h8, h9⟩⟩

theorem AlertWork.bounded {s t : State} (h : AlertWork s t) (hb : Bounded s) : Bounded t := by
  obtain ⟨hq, hd, hr, hx, hring, hw, hc, hs, hp⟩ := hb
  obtain ⟨-, hle, -, -, hps, -⟩ := h.outside
  refine ⟨h.queue.length_le.trans hq, h.doneList hd, h.noticed.link.requests hr, h.noticed.link.txQueue hx, ?_, ?_, ?_, ?_, ?_⟩
  · rw [hle]; exact hring
  · rw [h.ms]; exact hw
  · rw [h.ms]; exact hc
  · rw [h.results]; exact hs
  · rw [hps]; exact hp

theorem ComputeWork.bounded {k : Axis} {s t : State} (h : ComputeWork k s t) (hb : Bounded s) : Bounded t := by
  obtain ⟨hq, hd, hr, hx, hring, hw, hc, hs, hp⟩ := hb
  refine ⟨?_, ?_, h.noticed.link.requests hr, h.noticed.link.txQueue hx, ?_, ?_, ?_, h.results.trans hs, ?_⟩
  · rw [h.ms]; exact hq
  · rw [h.ms]; exact hd
  · rw [h.le]; exact hring
  · rw [h.ms]; exact hw
  · rw [h.ms]; exact hc
  · rw [h.ps]; exact hp

theorem axisWork_applyMode (s : State) (m : AxisSet) (t : Option TargetMode) (d : Option Bool) : AxisWork s (s.applyMode m t d) := by
  have htrans : AxisWork s (match t with
      | some t => (axesOf m).foldl (fun s k => s.applyTransition k t) s
      | none => s) := by
    split
    · exact .foldl (fun s k => axisWork_applyTransition s k _) _ _
    · exact .refl s
  unfold State.applyMode
  dsimp only
  split
  · refine htrans.trans ⟨.of_cl rfl rfl rfl rfl rfl rfl rfl rfl, .refl _ _, rfl, rfl, .inl rfl, rfl, fun h => ?_⟩
    rw [inRange_iff] at h ⊢
    obtain ⟨hx, hw⟩ := h
    refine ⟨fun k => ?_, hw⟩
    have hk := hx k
    unfold State.axis at hk ⊢
    simp only [State.setDamp, Five.get_mapAxis]
    split
    · exact hk.of_eq
    · exact hk
  · exact htrans

theorem bounded_blocksReset {s : State} (cause : ResetCause) (pins : Pins) (h : Bounded s) : Bounded (s.blocksReset cause pins) := by
  obtain ⟨-, -, -, -, -, -, -, -, hp⟩ := h
  have hwf : s.ps.afterReset.wf = true :=
    Store.wf_busy (p := s.ps) rfl (Store.protectCount_le (p := s.ps) hp) nofun nofun hp
  exact ⟨Nat.zero_le _, Nat.zero_le _, Nat.zero_le _, Nat.zero_le _, rfl, rfl, rfl, rfl, hwf⟩

theorem length_numbered (n : Half) (es : List (Byte × EntryBody)) : (numbered n es).length = es.length := by
  unfold numbered; simp

theorem assertKill_bounded {s : State} (h : Bounded s) : Bounded s.assertKill :=
  assertKill_keeps (fun hw => hw.bounded) (fun hw => hw.bounded) (fun _ h => h) (fun h => h) h (fun _ => h)

theorem upheld_bounded : Upheld Bounded Bounded Bounded where
  within h := h
  final h := h
  settle _ _ h := (alertWork_settle _ _).bounded h
  choose _ h := (alertWork_choose _ _).bounded h
  reset {s} cause pins h := by
    have hreset := bounded_blocksReset cause pins h
    unfold State.resetWith
    dsimp only
    split
    · exact hreset
    · exact assertKill_bounded hreset
  tick h := h
  prot _ h := h
  trig line _ h := by cases line <;> exact h
  assertKill h := assertKill_bounded h
  releaseKill {s} h := by
    unfold State.releaseKill
    split
    · exact (alertWork_settle _ _).bounded (s := ({ s with killAsserted := false } : State).setHoldKill false) h
    · exact h
  ports _ h := h
  portsWithin _ h := h
  linkHeld _ _ h := h
  keepReport _ _ h := h
  wordSent _ h := h
  beginFrame {s} h := by
    obtain ⟨hq, hd, hr, hx, hring, hrest⟩ := h
    exact ⟨hq, hd, hr, hx, by simp [State.beginFrame, hring], hrest⟩
  restartFrameTimer h := h
  computeAxis {s} k n h := (computeWork s k n).bounded h
  reportSegment k n b h := (axisWork_reportSegment _ k n b).alert.bounded h
  changeCues c h := (headWork_changeCues _ c).alert.bounded h
  countFrame h := (headWork_countFrame _).alert.bounded h
  link hc h := by
    obtain ⟨hq, hd, hr, hx, hrest⟩ := h
    exact ⟨hq, hd, hc.requests hr, hc.txQueue hx, hrest⟩
  setup _ h := h
  restartSilence h := h
  expireSilence h := h
  axes _ h := h
  applyMode m t d h := (axisWork_applyMode _ m t d).alert.bounded h
  startSweep _ _ _ _ _ _ _ h := by
    obtain ⟨hq, hd, hr, hx, hring, hw, hc, hs, hp⟩ := h
    exact ⟨hq, hd, hr, hx, hring, hw, hc, by simp [State.startSweep, hs], hp⟩
  abortSweep hrun h := (axisWork_abortSweep hrun).alert.bounded h
  loadTuning _ h := h
  enqueue {s es} _ hlen h := by
    obtain ⟨-, hrest⟩ := h
    exact ⟨by simpa [State.enqueue, length_numbered] using hlen, hrest⟩
  run h := h
  pause h := h
  flush h := by
    obtain ⟨-, hrest⟩ := h
    exact ⟨Nat.zero_le _, hrest⟩
  pages _ hlen h := by
    obtain ⟨hq, hd, hr, hx, hring, hw, hrest⟩ := h
    exact ⟨hq, hd, hr, hx, hring, hlen.trans hw, hrest⟩
  loadWaypoints _ h := by
    obtain ⟨hq, hd, hr, hx, hring, hw, hrest⟩ := h
    exact ⟨hq, hd, hr, hx, hring, by simp [State.loadWaypoints, hw], hrest⟩
  cueTable ht h := by
    obtain ⟨hq, hd, hr, hx, hring, hw, hc, hrest⟩ := h
    exact ⟨hq, hd, hr, hx, hring, hw, ht hc, hrest⟩
  clearSeen h := h
  configure _ h := h
  testMask _ h := h
  cancel _ h := h
  endService1 h := h
  resolve2 _ h := resolve2_keeps (fun hw => hw.bounded) (fun h => h) (fun h => h) h
  store hp h := by
    obtain ⟨hq, hd, hr, hx, hring, hw, hc, hs, hwf⟩ := h
    exact ⟨hq, hd, hr, hx, hring, hw, hc, hs, hp hwf⟩
  park h := h
  unpark _ h := h
  settlingEnd {s} h := by
    unfold State.endSettling
    split
    · unfold State.noticeDone
      rw [offerUnasked_eq]
      obtain ⟨hq, hd, hr, hx, hrest⟩ := h
      have hlink := (Noticed.one (noticeDone_notice s.le.frameNo .unpark 0 0 0) s.cl).link
      exact ⟨hq, hd, hlink.requests hr, hlink.txQueue hx, hrest⟩
    · exact h
  halt {s} h := by unfold State.takeHalt; split <;> exact h
  resume {s} h := by unfold State.takeRun; split <;> exact h

/-- Settles O56: the queues have room when something is put into them, and every table is written in place. -/
theorem everyStepKeepsSizes : Obligations.EveryStepKeepsSizes := fun _ _ h ht => upheld_bounded.step (fun _ _ _ => h) h ht

/-! ### Ranges (O57) -/

/-- A change of the axes alone that keeps each in range. -/
theorem inRange_axes {s : State} {x : Five AxisRec} (hx : ∀ k, AxisInRange (s.axes.get k) → AxisInRange (x.get k)) (h : InRange s) :
    InRange { s with axes := x } := by
  rw [inRange_iff] at h ⊢
  exact ⟨fun k => hx k (h.1 k), h.2⟩

theorem inRange_axesReset (k : Axis) : AxisInRange (axesReset.get k) := by
  have hok (n : Nat) (h : n = 1 ∨ n = 4) : AxisInRange (AxisRec.reset n) :=
    ⟨Tuning.ok_reset h, Tuning.ok_reset h, Nat.zero_le _, Nat.zero_le _, Nat.zero_le _, Nat.zero_le _⟩
  cases k <;> exact hok _ (by decide)

theorem inRange_blocksReset (s : State) (cause : ResetCause) (pins : Pins) : InRange (s.blocksReset cause pins) := by
  rw [inRange_iff]
  exact ⟨inRange_axesReset, nofun⟩

theorem assertKill_inRange {s : State} (h : InRange s) : InRange s.assertKill :=
  assertKill_keeps (fun hw => hw.inRange) (fun hw => hw.inRange) (fun _ h => h) (fun h => h) h (fun _ => h)

theorem upheld_inRange : Upheld InRange InRange InRange where
  within h := h
  final h := h
  settle _ _ h := (alertWork_settle _ _).inRange h
  choose _ h := (alertWork_choose _ _).inRange h
  reset {s} cause pins h := by
    have hreset := inRange_blocksReset s cause pins
    unfold State.resetWith
    dsimp only
    split
    · exact hreset
    · exact assertKill_inRange hreset
  tick h := h
  prot _ h := h
  trig line _ h := by cases line <;> exact h
  assertKill h := assertKill_inRange h
  releaseKill {s} h := by
    unfold State.releaseKill
    split
    · exact (alertWork_settle _ _).inRange (s := ({ s with killAsserted := false } : State).setHoldKill false) h
    · exact h
  ports _ h := h
  portsWithin _ h := h
  linkHeld _ _ h := h
  keepReport _ _ h := h
  wordSent _ h := h
  beginFrame h := h
  restartFrameTimer h := h
  computeAxis {s} k n h := (computeWork s k n).inRange h
  reportSegment k n b h := (axisWork_reportSegment _ k n b).inRange h
  changeCues c h := (headWork_changeCues _ c).inRange h
  countFrame h := (headWork_countFrame _).inRange h
  link _ h := h
  setup _ h := h
  restartSilence h := h
  expireSilence {s} h := by
    refine inRange_axes (s := s) (x := s.axes.mapAxis _) (fun k ha => ?_) h
    rw [Five.get_mapAxis]
    split
    · obtain ⟨hactive, hstaged, hi, hu, heff, -⟩ := ha
      exact ⟨hactive, hstaged, hi, hu, heff, Nat.zero_le _⟩
    · exact ha
  axes hx h := inRange_axes (fun k => (hx k).inRange) h
  applyMode m t d h := (axisWork_applyMode _ m t d).inRange h
  startSweep {s} k dlo dhi wn q hle hhi h := by
    rw [inRange_iff]
    have hset : InRange (s.setActiveD k dlo) := (axisWork_setActiveD s k (fun _ => by omega)).inRange h
    have hsaved := (Tuning.bounds_of_ok (((inRange_iff s).mp h).1 k).1).d
    exact ⟨((inRange_iff _).mp hset).1, fun _ => ⟨hhi, hsaved, Nat.le_trans hle hhi⟩⟩
  abortSweep hrun h := (axisWork_abortSweep hrun).inRange h
  loadTuning {s} img h := by
    refine inRange_axes (s := s) (fun k ha => ?_) h
    rw [Five.get_mapAxis]
    obtain ⟨hactive, -, hrest⟩ := ha
    exact ⟨hactive, ok_loadedTuning _ _, hrest⟩
  enqueue _ _ h := h
  run h := h
  pause h := h
  flush h := h
  pages _ _ h := h
  loadWaypoints _ h := h
  cueTable _ h := h
  clearSeen h := h
  configure _ h := h
  testMask _ h := h
  cancel _ h := h
  endService1 {s} h := by
    refine inRange_axes (s := s) (x := s.axes.mapAxis _) (fun k ha => ?_) h
    rw [Five.get_mapAxis]
    exact ha.of_eq
  resolve2 _ h := resolve2_keeps (fun hw => hw.inRange) (fun h => h) (fun h => h) h
  store _ h := h
  park h := h
  unpark _ h := h
  settlingEnd {s} h := by
    unfold State.endSettling
    split
    · unfold State.noticeDone
      rw [offerUnasked_eq]
      exact h
    · exact h
  halt {s} h := by unfold State.takeHalt; split <;> exact h
  resume {s} h := by unfold State.takeRun; split <;> exact h

/-- Settles O57: each write to a tuning record, an integrator, a demand or a rate clamps it to the active record's bounds, and the swap
clamps them to the new record's. -/
theorem everyStepKeepsRanges : Obligations.EveryStepKeepsRanges := fun _ _ h ht => upheld_inRange.step (fun _ _ _ => h) h ht

/-! ### Rules that tie registers together (O58) -/

/-- The frame timer's rule (R193). -/
abbrev TimerCoherent (l : LoopEngine) : Prop := l.frameTimer = true ↔ l.park ≠ .parked ∧ l.halted = false

theorem timerCoherent_set (s : State) : TimerCoherent s.setFrameTimer.le := by
  unfold TimerCoherent State.setFrameTimer LoopEngine.timerShouldRun
  simp

/-- A change that the rules do not see. -/
theorem Coherent.same {s t : State} (h : Coherent s) (le : TimerCoherent s.le → TimerCoherent t.le := by exact id)
    (phase : PhaseCoherent s.ms → PhaseCoherent t.ms := by exact id) (holdKill : t.ms.holdKill = s.ms.holdKill := by rfl)
    (kill : t.killAsserted = s.killAsserted := by rfl) (holdAlert : t.ms.holdAlert = s.ms.holdAlert := by rfl)
    (h1 : t.alc.inService1 = s.alc.inService1 := by rfl) (h2 : t.alc.inService2 = s.alc.inService2 := by rfl)
    (hc1 : t.alc.cause1 = s.alc.cause1 := by rfl) (hc2 : t.alc.cause2 = s.alc.cause2 := by rfl)
    (hl1 : t.alc.link1 = s.alc.link1 := by rfl) (hl2 : t.alc.link2 = s.alc.link2 := by rfl) : Coherent t := by
  obtain ⟨ht, hp, hk, ha, hr1, hr2⟩ := h
  refine ⟨le ht, phase hp, by rw [holdKill, kill, hk], by rw [holdAlert, h2, ha], ?_, ?_⟩
  · rw [h1, hc1, hl1]; exact hr1
  · rw [h2, hc2, hl2]; exact hr2

theorem AlertWork.coherentState {s t : State} (h : AlertWork s t) (hc : Coherent s) : Coherent t := by
  obtain ⟨ht, hp, hk, ha, hr1, hr2⟩ := hc
  obtain ⟨-, hle, -, hkill, -⟩ := h.outside
  refine ⟨?_, h.coherent hp, ?_, h.held ha, h.records1 hr1, h.records2 hr2⟩
  · rw [hle]; exact ht
  · rw [h.ms, hkill]; exact hk

theorem ComputeWork.coherent {k : Axis} {s t : State} (h : ComputeWork k s t) (hc : Coherent s) : Coherent t := by
  refine hc.same ?_ (fun hp => ?_) ?_ h.killAsserted ?_ ?_ ?_ ?_ ?_ ?_ ?_
  · rw [h.le]; exact id
  · unfold PhaseCoherent at hp ⊢
    have hq : t.ms.queue = s.ms.queue := by rw [h.ms]
    rw [hq, ← hp]
    rcases h.phase with he | ⟨⟨o, a, hs⟩, o', a', ht⟩
    · rw [he]
    · rw [hs, ht]; exact ⟨nofun, nofun⟩
  all_goals first | (rw [h.ms]) | (rw [h.alc])

/-- All the rules but the one on the kill level, whose hold stands before the level is taken (R129). -/
def KillHeld (s : State) : Prop := Coherent { s with killAsserted := true }

theorem AlertWork.killHeld {s t : State} (h : AlertWork s t) (hc : KillHeld s) : KillHeld t := by
  unfold KillHeld at hc ⊢
  obtain ⟨ht, hp, hk, ha, hr1, hr2⟩ := hc
  have hle := h.outside.2.1
  refine ⟨?_, h.coherent hp, ?_, h.held ha, h.records1 hr1, h.records2 hr2⟩
  · show TimerCoherent t.le
    rw [hle]; exact ht
  · show t.ms.holdKill = true
    rw [h.ms]; exact hk

theorem coherent_assertKill {s : State} (h : Coherent s) : Coherent s.assertKill := by
  have hheld : KillHeld (s.setHoldKill true) := by
    obtain ⟨ht, hp, -, hrest⟩ := h
    exact ⟨ht, hp, rfl, hrest⟩
  exact assertKill_keeps (fun hw => hw.killHeld) (fun hw => hw.coherentState) (fun _ h => h.same) id hheld (fun _ => h)

/-- RESOLVE(2) frees the level, and the hold goes unless level 2 is taken again (R152). -/
theorem coherent_resolve2 {s : State} (hserv : s.alc.inService2 = true) (h : Coherent s) : Coherent s.resolve2 := by
  have hreturned := (alertWork_returned s).coherentState h
  have hserved := (alertWork_returned s).service2 hserv
  unfold State.resolve2
  dsimp only
  generalize ((axesOf (returningAxes s)).foldl State.returnAxis s).refreshTruths = t at hreturned hserved
  obtain ⟨ht, hp, hk, ha, hr1, -⟩ := hreturned
  have hwork := alertWork_settle t.endService2 []
  obtain ⟨-, hle, -, hkill, -⟩ := hwork.outside
  have hhold : (t.endService2.settle []).ms.holdAlert = true := hwork.holds (ha.trans hserved)
  have hle' : TimerCoherent (t.endService2.settle []).le := by rw [hle]; exact ht
  have hk' : (t.endService2.settle []).ms.holdKill = (t.endService2.settle []).killAsserted := by rw [hwork.ms, hkill]; exact hk
  have hr2' := hwork.records2 nofun
  split_ifs with hagain
  · exact ⟨hle', hwork.coherent hp, hk', hhold.trans hagain.symm, hwork.records1 hr1, hr2'⟩
  · rw [Bool.not_eq_true] at hagain
    exact (alertWork_settle _ []).coherentState ⟨hle', hwork.coherent hp, hk', hagain.symm, hwork.records1 hr1, hr2'⟩

theorem coherent_blocksReset (s : State) (cause : ResetCause) (pins : Pins) : Coherent (s.blocksReset cause pins) := by
  have htimer : TimerCoherent LoopEngine.reset := by decide
  refine ⟨htimer, ⟨fun _ => rfl, fun _ => rfl⟩, rfl, rfl, nofun, nofun⟩

theorem coherent_setFrameTimer {s : State} (h : Coherent s) : Coherent s.setFrameTimer :=
  h.same (fun _ => timerCoherent_set s)

theorem upheld_coherent : Upheld Coherent Coherent Coherent where
  within h := h
  final h := h
  settle _ _ h := (alertWork_settle _ _).coherentState h
  choose _ h := (alertWork_choose _ _).coherentState h
  reset {s} cause pins _ := by
    have hreset := coherent_blocksReset s cause pins
    unfold State.resetWith
    dsimp only
    split
    · exact hreset
    · exact coherent_assertKill hreset
  tick h := h.same
  prot _ h := h.same
  trig line _ h := by cases line <;> exact h.same
  assertKill h := coherent_assertKill h
  releaseKill {s} h := by
    unfold State.releaseKill
    split
    · obtain ⟨ht, hp, -, hrest⟩ := h
      exact (alertWork_settle _ _).coherentState ⟨ht, hp, rfl, hrest⟩
    · exact h
  ports _ h := h.same
  portsWithin _ h := h.same
  linkHeld _ _ h := h.same
  keepReport _ _ h := h.same
  wordSent _ h := h.same
  beginFrame h := h.same
  restartFrameTimer h := h.same
  computeAxis {s} k n h := (computeWork s k n).coherent h
  reportSegment k n b h := (axisWork_reportSegment _ k n b).alert.coherentState h
  changeCues c h := (headWork_changeCues _ c).alert.coherentState h
  countFrame h := (headWork_countFrame _).alert.coherentState h
  link _ h := h.same
  setup _ h := h.same
  restartSilence h := h.same
  expireSilence h := h.same
  axes _ h := h.same
  applyMode m t d h := (axisWork_applyMode _ m t d).alert.coherentState h
  startSweep _ _ _ _ _ _ _ h := h.same
  abortSweep hrun h := (axisWork_abortSweep hrun).alert.coherentState h
  loadTuning _ h := h.same
  enqueue {s es} hne _ h := by
    refine h.same id (fun hp => ?_)
    have hnum : numbered s.ms.nextSerial es ≠ [] := by
      rw [← List.length_pos_iff, length_numbered]
      exact List.length_pos_iff.mpr hne
    unfold PhaseCoherent State.enqueue at *
    dsimp only
    split
    · exact freshPhase_coherent _
    · next hq =>
      rw [List.isEmpty_iff] at hq
      simp [hp, hq]
  run h := h.same
  pause h := h.same
  flush h := h.same id (fun _ => ⟨fun _ => rfl, fun _ => rfl⟩)
  pages _ _ h := h.same
  loadWaypoints _ h := h.same
  cueTable _ h := h.same
  clearSeen h := h.same
  configure _ h := h.same
  testMask _ h := h.same
  cancel _ h := h.same
  endService1 h := by
    obtain ⟨ht, hp, hk, ha, -, hr2⟩ := h
    exact ⟨ht, hp, hk, ha, nofun, hr2⟩
  resolve2 hs h := coherent_resolve2 hs h
  store _ h := h.same
  park h := h.same (fun _ => timerCoherent_set _)
  unpark _ h := h.same (fun _ => timerCoherent_set _)
  settlingEnd {s} h := by
    unfold State.endSettling
    split
    · next hpark =>
      unfold State.noticeDone
      rw [offerUnasked_eq]
      refine h.same (fun ht => ?_)
      simpa [TimerCoherent, hpark] using ht
    · exact h
  halt {s} h := by
    unfold State.takeHalt
    split
    · exact h
    · exact h.same (fun _ => timerCoherent_set _)
  resume {s} h := by
    unfold State.takeRun
    split
    · exact h.same (fun _ => timerCoherent_set _)
    · exact h

/-- Settles O58: the timer is set whenever the park state or the halted flag is, the phase with the queue, a hold with its reason, and
a taking writes its records. -/
theorem everyStepKeepsTimerAndPhase : Obligations.EveryStepKeepsTimerAndPhase :=
  fun _ _ h ht => upheld_coherent.step (fun _ _ _ => h.same) h ht

end Sys2Proof.Machine
end

section
/-! PROOFS. Requests read back from their bytes (R166 steps 1 and 2): each reader of a field against the writer of the same field. -/

namespace Sys2Proof

open Machine (halfBytes wordBytes halfOf wordOf byteOf flagBit halfOf_halfBytes)

/-! ### Single fields -/

theorem wordOf_wordBytes (w : Word) :
    wordOf (w.extractLsb' 24 8) (w.extractLsb' 16 8) (w.extractLsb' 8 8) (w.extractLsb' 0 8) = w := by
  refine BitVec.eq_of_getLsbD_eq fun i hi => ?_
  unfold wordOf halfOf
  simp only [BitVec.getLsbD_append, BitVec.getLsbD_extractLsb']
  split_ifs
  · simp [*]
  · simp [*, show i - 8 < 8 by omega, show 8 + (i - 8) = i by omega]
  · simp [*, show 16 + (i - 16) = i by omega]
  · simp [show i - (8 + 8) - 8 < 8 by omega, show 24 + (i - (8 + 8) - 8) = i by omega]

theorem toNat_byteOf {n : Nat} (h : n < 256) : (byteOf n).toNat = n := by
  unfold byteOf
  rw [BitVec.toNat_ofNat, Nat.mod_eq_of_lt (by omega)]

theorem getElem_flagBit {i j : Nat} (hj : j < 8) (b : Bool) : (flagBit i b)[j] = (decide (i = j) && b) := by
  cases b with
  | false => simp [flagBit]
  | true =>
    rw [← BitVec.getLsbD_eq_getElem, flagBit, if_pos rfl, byteOf, BitVec.getLsbD_ofNat, Nat.testBit_two_pow]
    simp [hj]

theorem getLsbD_halfOf (a b : Byte) (i : Nat) :
    (halfOf a b).getLsbD i = if i < 8 then b.getLsbD i else a.getLsbD (i - 8) := by
  unfold halfOf
  rw [BitVec.getLsbD_append]

/-! ### Lists of records -/

theorem takeWords_bytes (ws : List Word) (rest : List Byte) :
    takeWords ws.length (wordsBytes ws ++ rest) = some (ws, rest) := by
  induction ws with
  | nil => rfl
  | cons w ws ih =>
    show takeWords (ws.length + 1) (_ :: _ :: _ :: _ :: (wordsBytes ws ++ rest)) = _
    rw [takeWords, ih, wordOf_wordBytes]

theorem takeHalves_bytes (hs : List Half) : takeHalves hs.length (hs.flatMap halfBytes) = some hs := by
  induction hs with
  | nil => rfl
  | cons h hs ih =>
    show takeHalves (hs.length + 1) (_ :: _ :: hs.flatMap halfBytes) = _
    rw [takeHalves, ih, halfOf_halfBytes]

theorem takeTunePairs_bytes (ps : List TunePair) : takeTunePairs ps.length (ps.flatMap TunePair.bytes) = some ps := by
  induction ps with
  | nil => rfl
  | cons p ps ih =>
    show takeTunePairs (ps.length + 1) (_ :: _ :: _ :: _ :: _ :: ps.flatMap TunePair.bytes) = _
    rw [takeTunePairs, ih, wordOf_wordBytes]

theorem takeCuePairs_bytes (ps : List CuePair) : takeCuePairs ps.length (ps.flatMap CuePair.bytes) = some ps := by
  induction ps with
  | nil => rfl
  | cons p ps ih =>
    show takeCuePairs (ps.length + 1) (_ :: _ :: _ :: ps.flatMap CuePair.bytes) = _
    rw [takeCuePairs, ih]

theorem takeCfgRecords_bytes (rs : List CfgRecord) : takeCfgRecords rs.length (rs.flatMap CfgRecord.bytes) = some rs := by
  induction rs with
  | nil => rfl
  | cons r rs ih =>
    show takeCfgRecords (rs.length + 1) (_ :: _ :: _ :: _ :: rs.flatMap CfgRecord.bytes) = _
    rw [takeCfgRecords, ih]

theorem takeWptRecords_bytes {rs : List WptRecord} (h : rs.all WptRecord.wf = true) :
    takeWptRecords rs.length (rs.flatMap WptRecord.bytes) = some rs := by
  induction rs with
  | nil => rfl
  | cons r rs ih =>
    simp only [List.all_cons, Bool.and_eq_true] at h
    obtain ⟨hr, hrs⟩ := h
    have hlen : r.offsets.length = axisCount r.mask := by simpa [WptRecord.wf] using hr
    have hbytes : (r :: rs).flatMap WptRecord.bytes = r.mask :: (wordsBytes r.offsets ++ (r.label :: rs.flatMap WptRecord.bytes)) := by
      simp [WptRecord.bytes]
    rw [hbytes, List.length_cons, takeWptRecords, ← hlen, takeWords_bytes]
    dsimp only
    rw [ih hrs]

/-! ### Queue entries -/

theorem takeEntry_bytes {e : RawEntry} (h : e.wf = true) (rest : List Byte) : takeEntry (e.bytes ++ rest) = some (e, rest) := by
  cases e with
  | goto tag m w dn f =>
    show some (RawEntry.goto tag m w (wordOf _ _ _ _) f, rest) = _
    rw [wordOf_wordBytes]
  | shift tag m ds dn f =>
    have hlen : ds.length = axisCount m := by simpa [RawEntry.wf] using h
    have hbytes : (RawEntry.shift tag m ds dn f).bytes ++ rest =
        byteOf 2 :: tag :: m :: (wordsBytes ds ++ (wordBytes dn ++ f :: rest)) := by simp [RawEntry.bytes]
    rw [hbytes]
    show (match takeWords (axisCount m) (wordsBytes ds ++ (wordBytes dn ++ f :: rest)) with
      | some (ws, a :: b :: c :: d :: f :: rest) => some (RawEntry.shift tag m ws (wordOf a b c d) f, rest)
      | _ => none) = _
    rw [← hlen, takeWords_bytes]
    show some (RawEntry.shift tag m ds (wordOf _ _ _ _) f, rest) = _
    rw [wordOf_wordBytes]
  | dwell tag n =>
    show some (RawEntry.dwell tag (wordOf _ _ _ _), rest) = _
    rw [wordOf_wordBytes]
  | wait tag m f t =>
    show some (RawEntry.wait tag m f (wordOf _ _ _ _), rest) = _
    rw [wordOf_wordBytes]
  | cue tag s c => rfl
  | mode tag m t => rfl

theorem walkEntries_bytes {es : List RawEntry} (h : es.all RawEntry.wf = true) :
    walkEntries es.length (es.flatMap RawEntry.bytes) = .entries es := by
  induction es with
  | nil => rfl
  | cons e es ih =>
    simp only [List.all_cons, Bool.and_eq_true] at h
    obtain ⟨he, hes⟩ := h
    have hentry := takeEntry_bytes he (es.flatMap RawEntry.bytes)
    obtain ⟨k, bs, hbs, hk⟩ : ∃ k bs, e.bytes = k :: bs ∧ knownEntryKind k = true := by
      cases e <;> exact ⟨_, _, rfl, rfl⟩
    rw [hbs] at hentry
    rw [List.flatMap_cons, hbs, List.length_cons, List.cons_append, walkEntries, if_pos hk]
    rw [List.cons_append] at hentry
    rw [hentry]
    dsimp only
    rw [ih hes]

/-! ### SETUP -/

theorem takeOptByte_bytes (o : Option Byte) (rest : List Byte) :
    takeOptByte o.isSome (optByteBytes o ++ rest) = some (o, rest) := by
  cases o <;> rfl

theorem takeOptHalf_bytes (o : Option Half) (rest : List Byte) :
    takeOptHalf o.isSome (optHalfBytes o ++ rest) = some (o, rest) := by
  cases o with
  | none => rfl
  | some h =>
    show some (some (halfOf _ _), rest) = _
    rw [halfOf_halfBytes]

theorem takeOptSelector_bytes (o : Option RawSelector) (rest : List Byte) :
    takeOptSelector o.isSome (optSelectorBytes o ++ rest) = some (o, rest) := by
  cases o <;> rfl

/-- A field read, the reading goes on with what follows it. -/
theorem bind_read {α β : Type} {o : Option α} {a : α} {g : α → Option β} (h : o = some a) : (o >>= g) = g a := by rw [h]; rfl

/-- The presence bits of a SETUP, as they are read from its two mask bytes. -/
theorem setupMask_bit (f : SetupFields) :
    let m := halfOf f.maskHigh f.maskLow
    (m.getLsbD 0 = f.silence.isSome ∧ m.getLsbD 1 = f.staleBase.isSome ∧ m.getLsbD 2 = f.staleTip.isSome ∧
      m.getLsbD 3 = f.staleHead.isSome ∧ m.getLsbD 4 = f.gravBand.isSome ∧ m.getLsbD 5 = f.driverMiss.isSome ∧
      m.getLsbD 6 = f.strictLoad.isSome ∧ m.getLsbD 7 = f.bit7) ∧
    (m.getLsbD 8 = f.sel0.isSome ∧ m.getLsbD 9 = f.sel1.isSome ∧ m.getLsbD 10 = f.sel2.isSome ∧ m.getLsbD 11 = f.sel3.isSome ∧
      m.getLsbD 12 = f.sel4.isSome ∧ m.getLsbD 13 = f.sel5.isSome ∧ m.getLsbD 14 = f.sel6.isSome ∧ m.getLsbD 15 = f.sel7.isSome) := by
  simp only [getLsbD_halfOf, SetupFields.maskLow, SetupFields.maskHigh, BitVec.getLsbD_or]
  norm_num [getElem_flagBit]

theorem takeSetup_bytes (f : SetupFields) :
    takeSetup (halfOf f.maskHigh f.maskLow)
      (optHalfBytes f.silence ++ (optByteBytes f.staleBase ++ (optByteBytes f.staleTip ++ (optByteBytes f.staleHead ++
        (optHalfBytes f.gravBand ++ (optByteBytes f.driverMiss ++ (optByteBytes f.strictLoad ++
          (f.selectors.flatMap optSelectorBytes)))))))) = some f := by
  obtain ⟨⟨h0, h1, h2, h3, h4, h5, h6, h7⟩, h8, h9, h10, h11, h12, h13, h14, h15⟩ := setupMask_bit f
  have hsel : f.selectors.flatMap optSelectorBytes =
      optSelectorBytes f.sel0 ++ (optSelectorBytes f.sel1 ++ (optSelectorBytes f.sel2 ++ (optSelectorBytes f.sel3 ++
        (optSelectorBytes f.sel4 ++ (optSelectorBytes f.sel5 ++ (optSelectorBytes f.sel6 ++ (optSelectorBytes f.sel7 ++ []))))))) := by
    simp [SetupFields.selectors]
  unfold takeSetup
  rw [hsel, h0, h1, h2, h3, h4, h5, h6, h7, h8, h9, h10, h11, h12, h13, h14, h15]
  refine (bind_read (takeOptHalf_bytes f.silence _)).trans <| (bind_read (takeOptByte_bytes f.staleBase _)).trans <|
    (bind_read (takeOptByte_bytes f.staleTip _)).trans <| (bind_read (takeOptByte_bytes f.staleHead _)).trans <|
    (bind_read (takeOptHalf_bytes f.gravBand _)).trans <| (bind_read (takeOptByte_bytes f.driverMiss _)).trans <|
    (bind_read (takeOptByte_bytes f.strictLoad _)).trans <| (bind_read (takeOptSelector_bytes f.sel0 _)).trans <|
    (bind_read (takeOptSelector_bytes f.sel1 _)).trans <| (bind_read (takeOptSelector_bytes f.sel2 _)).trans <|
    (bind_read (takeOptSelector_bytes f.sel3 _)).trans <| (bind_read (takeOptSelector_bytes f.sel4 _)).trans <|
    (bind_read (takeOptSelector_bytes f.sel5 _)).trans <| (bind_read (takeOptSelector_bytes f.sel6 _)).trans <|
    (bind_read (takeOptSelector_bytes f.sel7 _)).trans rfl

/-! ### Requests -/

/-- Settles O60: each reader of a list reads back what its writer wrote, whatever follows. -/
theorem requestBytesReadBack : Obligations.RequestBytesReadBack := by
  intro r hwf
  unfold Request.wf at hwf
  simp only [Bool.and_eq_true] at hwf
  obtain ⟨-, hwf⟩ := hwf
  cases r
  case setup f =>
    have hbytes : f.bytes = f.maskHigh :: f.maskLow :: (optHalfBytes f.silence ++ (optByteBytes f.staleBase ++
        (optByteBytes f.staleTip ++ (optByteBytes f.staleHead ++ (optHalfBytes f.gravBand ++ (optByteBytes f.driverMiss ++
          (optByteBytes f.strictLoad ++ (f.selectors.flatMap optSelectorBytes)))))))) := by
      simp [SetupFields.bytes]
    rw [Request.payload, hbytes]
    show orBadLength ((takeSetup (halfOf f.maskHigh f.maskLow) _).map Request.setup) = _
    rw [takeSetup_bytes]
    rfl
  case demand m rs =>
    simp only [beq_iff_eq] at hwf
    show orBadLength ((takeHalves (axisCount m) (rs.flatMap halfBytes)).map (Request.demand m)) = _
    rw [← hwf, takeHalves_bytes]
    rfl
  case tune a ps =>
    simp only [decide_eq_true_eq] at hwf
    show orBadLength ((takeTunePairs (byteOf ps.length).toNat (ps.flatMap TunePair.bytes)).map (Request.tune a)) = _
    rw [toNat_byteOf hwf, takeTunePairs_bytes]
    rfl
  case queueAdd es =>
    simp only [Bool.and_eq_true, decide_eq_true_eq] at hwf
    show (match walkEntries (byteOf es.length).toNat (es.flatMap RawEntry.bytes) with
      | .entries es => Parsed.request (.queueAdd es)
      | .unknownEntry => .badEntry
      | .wrongLength => .badLength) = _
    rw [toNat_byteOf hwf.1, walkEntries_bytes hwf.2]
  case wptWrite a rs =>
    simp only [Bool.and_eq_true, decide_eq_true_eq] at hwf
    show orBadLength ((takeWptRecords (byteOf rs.length).toNat (rs.flatMap WptRecord.bytes)).map (Request.wptWrite a)) = _
    rw [toNat_byteOf hwf.1, takeWptRecords_bytes hwf.2]
    rfl
  case cue c e ps =>
    simp only [decide_eq_true_eq] at hwf
    show orBadLength ((takeCuePairs (byteOf ps.length).toNat (ps.flatMap CuePair.bytes)).map (Request.cue c e)) = _
    rw [toNat_byteOf hwf, takeCuePairs_bytes]
    rfl
  case alertCfg rs =>
    simp only [decide_eq_true_eq] at hwf
    show orBadLength ((takeCfgRecords (byteOf rs.length).toNat (rs.flatMap CfgRecord.bytes)).map Request.alertCfg) = _
    rw [toNat_byteOf hwf, takeCfgRecords_bytes]
    rfl
  case sweep a lo hi w q =>
    show Parsed.request (.sweep a lo hi (halfOf _ _) (wordOf _ _ _ _)) = _
    rw [halfOf_halfBytes, wordOf_wordBytes]
  case alertTest m p =>
    show Parsed.request (.alertTest m (halfOf _ _)) = _
    rw [halfOf_halfBytes]
  case alertCancel m =>
    show Parsed.request (.alertCancel (wordOf _ _ _ _)) = _
    rw [wordOf_wordBytes]
  case reportPlan k i =>
    show Parsed.request (.reportPlan k (halfOf _ _)) = _
    rw [halfOf_halfBytes]
  all_goals rfl

end Sys2Proof
end

section
/-! PROOFS. The step on the queue of commands, and the resets with KILL_N high. -/

namespace Sys2Proof.Machine

/-- Settles O1. -/
theorem stepRunsFrontCommand : Obligations.StepRunsFrontCommand := by
  intro c rest s h
  unfold step
  rw [h]

/-- A reset with KILL_N high is the blocks' own (R22, R39). -/
theorem resetWith_high {pins : Pins} (h : pins.killN = true) (s : State) (cause : ResetCause) :
    s.resetWith cause pins = s.blocksReset cause pins := if_pos h

/-- Settles O4: the reset writes every block, and of the store what is not kept. -/
theorem resetLeavesBlocksAtTheirValues : Obligations.ResetLeavesBlocksAtTheirValues := by
  intro pins s h
  exact ⟨congrArg Host.Outcome.next (resetWith_high h s .power), congrArg Host.Outcome.next (resetWith_high h s .pin)⟩

theorem arbitrate_none_reset : State.reset.arbitrate = none := by decide

/-- Settles O59: each invariant's own lemma about a reset, at the values that the first reset leaves. -/
theorem resetMeetsTheInvariants : Obligations.ResetMeetsTheInvariants := by
  have hreset : ∃ (s : State) (cause : ResetCause) (pins : Pins), State.reset = s.blocksReset cause pins := ⟨State.reset, .power, ⟨true, false, false, true⟩, rfl⟩
  obtain ⟨s, cause, pins, h⟩ := hreset
  have hrest : AtRest State.reset := h ▸ atRest_blocksReset s cause pins
  have hbounded : Bounded State.reset := by
    refine ⟨?_, ?_, ?_, ?_, ?_, ?_, ?_, ?_, Store.wf_factory⟩
    all_goals decide
  refine ⟨⟨⟨rfl, rfl, rfl, nofun, hrest⟩, nofun⟩, hbounded, h ▸ inRange_blocksReset s cause pins, h ▸ coherent_blocksReset s cause pins, ?_⟩
  intro k
  cases k <;> exact ⟨fun _ => rfl, nofun⟩

/-- A reset's axis records (R39). -/
theorem axesReset_get (k : Axis) : axesReset.get k = AxisRec.reset (if k = .swing ∨ k = .lift then 4 else 1) := by
  cases k <;> rfl

/-- RESTART's reply leaves the line: the reset takes the pins as the state holds them (R176). -/
theorem frameSent_restart {s : State} (hd : s.cl.dispatcher = .restarting none) {tag : Byte} {rest : List Frame}
    (hq : s.cl.txQueue = ⟨0x82, tag, [0]⟩ :: rest) :
    s.frameSent = s.resetWith .restart ⟨!s.killAsserted, s.ms.trig0.line, s.ms.trig1.line, s.protHigh⟩ := by
  have hreply : isRestartReply s ⟨0x82, tag, [0]⟩ = true := by
    unfold isRestartReply
    rw [hd]
    rfl
  unfold State.frameSent
  rw [hq]
  dsimp only
  rw [if_pos hreply]
  rfl

/-- The reset of each cause, KILL_N high, is the blocks' own. -/
theorem reset_high_cases {pins : Pins} {s t : State}
    (h : pins.killN = true ∧ (exec (.powerOnReset pins) s = .next t ∨ exec (.pinReset pins) s = .next t) ∨
      (pins.trig0 = s.ms.trig0.line ∧ pins.trig1 = s.ms.trig1.line ∧ s.killAsserted = false ∧ s.cl.dispatcher = .restarting none ∧
        (∃ tag rest, s.cl.txQueue = ⟨0x82, tag, [0]⟩ :: rest) ∧ exec .consoleFrameSent s = .next t)) :
    ∃ cause prot, t = s.blocksReset cause ⟨true, pins.trig0, pins.trig1, prot⟩ := by
  rcases h with ⟨hkill, ht | ht⟩ | ⟨h0, h1, hkill, hd, ⟨tag, rest, hq⟩, ht⟩
  · obtain rfl := Host.Outcome.next.inj ht
    exact ⟨.power, pins.protN, (resetWith_high hkill s .power)⟩
  · obtain rfl := Host.Outcome.next.inj ht
    exact ⟨.pin, pins.protN, (resetWith_high hkill s .pin)⟩
  · obtain rfl := Host.Outcome.next.inj ht
    refine ⟨.restart, s.protHigh, ?_⟩
    rw [frameSent_restart hd hq, resetWith_high (by rw [hkill]; rfl), h0, h1]
    rfl

theorem field_reset {n : Nat} : (List.range 30).map (Tuning.reset n).field =
    [0, 0, 0, 0, -1, 0, (n : Int), 1000, 500, 2000, 0, 4096, 64, -16777216, 16777216, 2048, 2048, 10, 10, 64, 4096, 400, 20000, 0, 0,
      16, 0, 0, 0, 0] := rfl

/-- Settles O5: every item is read off the blocks' values after reset. -/
theorem resetValuesAreThoseListed : Obligations.ResetValuesAreThoseListed := by
  intro pins s t power pin restart h
  have hcause : (pins.killN = true → power → t.cl.resetCause = .power) ∧ (pins.killN = true → pin → t.cl.resetCause = .pin) ∧
      (restart → t.cl.resetCause = .restart) := by
    refine ⟨fun hkill ht => ?_, fun hkill ht => ?_, fun ⟨_, _, hkill, hd, ⟨tag, rest, hq⟩, ht⟩ => ?_⟩
    · obtain rfl := Host.Outcome.next.inj ht
      rw [resetWith_high hkill]; rfl
    · obtain rfl := Host.Outcome.next.inj ht
      rw [resetWith_high hkill]; rfl
    · obtain rfl := Host.Outcome.next.inj ht
      rw [frameSent_restart hd hq, resetWith_high (by rw [hkill]; rfl)]; rfl
  obtain ⟨cause, prot, rfl⟩ := reset_high_cases h
  have haxis (k : Axis) : (s.blocksReset cause ⟨true, pins.trig0, pins.trig1, prot⟩).axis k =
      AxisRec.reset (if k = .swing ∨ k = .lift then 4 else 1) := axesReset_get k
  refine ⟨hcause, ⟨fun u => ?_, fun k => ?_⟩, fun k => ?_, fun k => ?_, rfl, rfl, fun k => ?_, rfl, rfl, fun src => ?_,
    ⟨rfl, rfl, rfl, rfl, rfl, rfl, rfl, rfl, rfl⟩, rfl, rfl⟩
  · cases u <;> rfl
  · cases k <;> rfl
  · rw [haxis, AxisRec.reset, field_reset]
    split <;> rfl
  · rw [haxis]; rfl
  · cases k <;> rfl
  · cases src with
    | feedbackStale k => cases k <;> rfl
    | pinned k => cases k <;> rfl
    | saturated k => cases k <;> rfl
    | driveFault k => cases k <;> rfl
    | _ => rfl

end Sys2Proof.Machine
end

section
/-! PROOFS. Wall time on an empty queue: which expiries are due, and the free choice among them. -/

namespace Sys2Proof.Machine

/-- The expiry of a timer that runs and has reached its limit, as its command (R6, R169, R100, R13, R196, R185 to R187). -/
def ExpiryDue (s : State) : Instr → Prop
  | .stalenessExpiry (.sen u) => (s.si.sen.get u).fresh = true ∧ 15625 * s.cl.setup.staleLimit.get u ≤ (s.si.sen.get u).elapsed
  | .stalenessExpiry (.enc k) =>
    (s.si.enc.get k).fresh = true ∧
      15625 * s.cl.setup.staleLimit.get (if k = .swing ∨ k = .lift then .tip else .head) ≤ (s.si.enc.get k).elapsed
  | .silenceExpiry => s.cl.silence = .running ∧ 32000 * s.cl.setup.silenceLimit ≤ s.cl.silenceElapsed
  | .holdOffExpiry line => (s.trig line).holdOff = true ∧ 64000 ≤ (s.trig line).elapsed
  | .loopFrame => s.le.frameTimer = true ∧ 15625 ≤ s.le.frameElapsed
  | .unparkSettlingEnd => s.le.park = .unparking ∧ 1600000 ≤ s.le.settleElapsed
  | .saveCompletion => (∃ k img, s.ps.busy = .saving k img) ∧ 1440000 ≤ s.ps.busyElapsed
  | .eraseCompletion => (∃ k, s.ps.busy = .erasing k) ∧ 2560000 ≤ s.ps.busyElapsed
  | .protectCompletion => (∃ n b, s.ps.busy = .protecting n b) ∧ 640000 ≤ s.ps.busyElapsed
  | _ => False

/-- Every expiry that can be due, once each. -/
def everyExpiry (s : State) : List Instr :=
  allPorts.map .stalenessExpiry ++ [.silenceExpiry] ++ [TrigLine.trig0, .trig1].map .holdOffExpiry ++ [.loopFrame] ++
    [.unparkSettlingEnd] ++ completionOf s.ps.busy

theorem nodup_everyExpiry (s : State) : (everyExpiry s).Nodup := by
  unfold everyExpiry
  cases s.ps.busy <;> (simp only [completionOf]; decide)

theorem sublist_ite {α : Type} (p : Prop) [Decidable p] (l : List α) : (if p then l else []).Sublist l := by
  split
  · exact List.Sublist.refl l
  · exact List.nil_sublist l

theorem dueExpiries_sublist (s : State) : (dueExpiries s).Sublist (everyExpiry s) := by
  unfold dueExpiries everyExpiry
  exact (((((List.filter_sublist.map _).append (sublist_ite _ _)).append (List.filter_sublist.map _)).append (sublist_ite _ _)).append
    (sublist_ite _ _)).append (sublist_ite _ _)

theorem nodup_dueExpiries (s : State) : (dueExpiries s).Nodup := (dueExpiries_sublist s).nodup (nodup_everyExpiry s)

theorem feedbackUnit_eq (k : Axis) : feedbackUnit k = if k = .swing ∨ k = .lift then .tip else .head := by cases k <;> rfl

/-- The unit of wall time counts 15,625 to a loop frame (log 2). -/
theorem staleLimitUnits_eq (s : State) (p : StalePort) : staleLimitUnits s p = 15625 * s.cl.setup.staleLimit.get (limitUnit p) :=
  Nat.mul_comm _ _

theorem staleDue_sen (s : State) (u : SenUnit) :
    staleDue s (.sen u) = true ↔ (s.si.sen.get u).fresh = true ∧ 15625 * s.cl.setup.staleLimit.get u ≤ (s.si.sen.get u).elapsed := by
  simp only [staleDue, Bool.and_eq_true, decide_eq_true_eq, staleLimitUnits_eq]
  exact Iff.rfl

theorem staleDue_enc (s : State) (k : Axis) :
    staleDue s (.enc k) = true ↔
      (s.si.enc.get k).fresh = true ∧
        15625 * s.cl.setup.staleLimit.get (if k = .swing ∨ k = .lift then .tip else .head) ≤ (s.si.enc.get k).elapsed := by
  simp only [staleDue, Bool.and_eq_true, decide_eq_true_eq, staleLimitUnits_eq, ← feedbackUnit_eq]
  exact Iff.rfl

theorem silenceDue_iff (s : State) :
    silenceDue s = true ↔ s.cl.silence = .running ∧ 32000 * s.cl.setup.silenceLimit ≤ s.cl.silenceElapsed := by
  have hunits : silenceUnits s = 32000 * s.cl.setup.silenceLimit := Nat.mul_comm _ _
  simp only [silenceDue, Bool.and_eq_true, decide_eq_true_eq, hunits]

theorem holdOffDue_iff (s : State) (line : TrigLine) :
    holdOffDue s line = true ↔ (s.trig line).holdOff = true ∧ 64000 ≤ (s.trig line).elapsed := by
  simp only [holdOffDue, Bool.and_eq_true, decide_eq_true_eq]
  exact Iff.rfl

theorem mem_allPorts (p : StalePort) : p ∈ allPorts := by
  cases p with
  | sen u => cases u <;> decide
  | enc k => cases k <;> decide

theorem mem_completion (s : State) (c : Instr) :
    c ∈ (if decide (busyUnits s.ps.busy ≤ s.ps.busyElapsed) then completionOf s.ps.busy else [] : List Instr) ↔
      (c = .saveCompletion ∧ (∃ k img, s.ps.busy = .saving k img) ∧ 1440000 ≤ s.ps.busyElapsed) ∨
      (c = .eraseCompletion ∧ (∃ k, s.ps.busy = .erasing k) ∧ 2560000 ≤ s.ps.busyElapsed) ∨
      (c = .protectCompletion ∧ (∃ n b, s.ps.busy = .protecting n b) ∧ 640000 ≤ s.ps.busyElapsed) := by
  rw [List.mem_ite_nil_right, decide_eq_true_eq]
  cases s.ps.busy <;> simp [busyUnits, completionOf, Config.unitsPerMs, and_comm]

/-- The expiries that are due are those whose timer runs and has reached its limit. -/
theorem mem_dueExpiries (s : State) (c : Instr) : c ∈ dueExpiries s ↔ ExpiryDue s c := by
  have hunpark : settlingUnits = 1600000 := rfl
  have hframe : Config.unitsPerLoopFrame = 15625 := rfl
  have hline (line : TrigLine) : line ∈ [TrigLine.trig0, .trig1] := by cases line <;> decide
  unfold dueExpiries
  simp only [List.mem_append, mem_completion]
  cases c
  case stalenessExpiry p =>
    cases p with
    | sen u => simp [ExpiryDue, mem_allPorts, staleDue_sen]
    | enc k => simp [ExpiryDue, mem_allPorts, staleDue_enc]
  case silenceExpiry => simp [ExpiryDue, silenceDue_iff]
  case holdOffExpiry line => simp [ExpiryDue, holdOffDue_iff, hline]
  case loopFrame => simp [ExpiryDue, hframe]
  case unparkSettlingEnd => simp [ExpiryDue, hunpark]
  all_goals simp [ExpiryDue]

/-- Any of the expiries that are due comes where the schedule picks it. -/
theorem idle_scheduled {s : State} {c : Instr} (h : c ∈ dueExpiries s) :
    ∃ n, ∀ rest, ∃ left, ({ s with schedule := n :: rest } : State).idle = exec c { s with schedule := left } := by
  obtain ⟨n, hn, hget⟩ := List.getElem_of_mem h
  refine ⟨n, fun rest => ?_⟩
  have hsame : dueExpiries { s with schedule := n :: rest } = dueExpiries s := rfl
  cases hd : dueExpiries s with
  | nil => rw [hd] at h; cases h
  | cons d ds =>
    simp only [hd] at hn hget hsame
    unfold State.idle
    rw [hsame]
    dsimp only
    cases ds with
    | nil =>
      obtain rfl : n = 0 := by simpa using hn
      exact ⟨0 :: rest, by rw [← hget]; rfl⟩
    | cons e es =>
      refine ⟨rest, ?_⟩
      have hchoose : ({ s with schedule := n :: rest } : State).choose ((e :: es).length + 1) =
          (n, { s with schedule := rest }) := by
        unfold State.choose
        rw [if_neg (by simp)]
        exact congrArg (·, _) (Nat.mod_eq_of_lt hn)
      rw [hchoose]
      dsimp only
      rw [List.getElem?_eq_getElem hn, hget]
      rfl

/-- With one expiry due alone, there is no choice. -/
theorem dueExpiries_single {s : State} {c : Instr} (h : c ∈ dueExpiries s) (hone : ∀ d ∈ dueExpiries s, d = c) :
    dueExpiries s = [c] := by
  have hnodup := nodup_dueExpiries s
  cases hd : dueExpiries s with
  | nil => rw [hd] at h; cases h
  | cons d ds =>
    rw [hd] at hone hnodup
    obtain rfl : d = c := hone d List.mem_cons_self
    cases ds with
    | nil => rfl
    | cons e es =>
      obtain rfl : e = d := hone e (List.mem_cons_of_mem _ List.mem_cons_self)
      simp at hnodup

/-- Settles O2: the list of the expiries that are due, and one unit of time when it is empty. -/
theorem emptyQueueLetsTimePass : Obligations.EmptyQueueLetsTimePass := by
  intro s hp stale due
  have hdue (c : Instr) : due c ↔ c ∈ dueExpiries s := (mem_dueExpiries s c).symm
  have hidle : step s = s.idle := by unfold step; rw [hp]
  have hidle' (l : List Nat) : step { s with schedule := l } = ({ s with schedule := l } : State).idle := by
    unfold step; rw [show ({ s with schedule := l } : State).pending = [] from hp]
  refine ⟨fun ⟨c, hc⟩ => ?_, fun c hc => ?_, fun c hc hone => ?_, fun hnone => ?_⟩
  · rcases idle_cases s with ⟨hnil, -⟩ | ⟨d, hd, he⟩
    · rw [hdue, hnil] at hc; cases hc
    · exact ⟨d, _, _, (hdue d).mpr hd, by rw [hidle, he, choose_eq]⟩
  · obtain ⟨n, hn⟩ := idle_scheduled ((hdue c).mp hc)
    refine ⟨n, fun rest => ?_⟩
    obtain ⟨left, hleft⟩ := hn rest
    exact ⟨left, by rw [hidle', hleft]⟩
  · rw [hidle]
    exact idle_single (dueExpiries_single ((hdue c).mp hc) (fun d hd => hone d ((hdue d).mpr hd)))
  · have hnil : dueExpiries s = [] := List.eq_nil_iff_forall_not_mem.mpr fun c hc => hnone c ((hdue c).mpr hc)
    refine ⟨s.tick, ?_, fun u => ?_, fun k => ?_, ?_, ?_, ?_, ?_, rfl, rfl, rfl, rfl, rfl, rfl, hp, rfl, rfl⟩
    · rw [hidle]; unfold State.idle; rw [hnil]
    · simp only [State.tick, Three.get_mapUnit]; split <;> rfl
    · simp only [State.tick, Five.get_mapAxis]; split <;> rfl
    · simp only [State.tick]; split_ifs <;> rfl
    · simp only [State.tick]; split_ifs <;> rfl
    · simp only [State.tick]; split_ifs <;> rfl
    · simp only [State.tick]; split_ifs <;> rfl

end Sys2Proof.Machine
end

section
/-! PROOFS. Bytes on the sensor, encoder and driver lines: what is held, what completes a record, how a record is judged. -/

namespace Sys2Proof.Machine

/-! ### Assembling (R1) -/

theorem assemble_short {n : Nat} {held bs : List Byte} (h : (held ++ bs).length < n) : assemble n held bs = ([], held ++ bs) := by
  induction bs generalizing held with
  | nil => simp [assemble]
  | cons b bs ih =>
    have hnow : ((held ++ [b]) ++ bs).length < n := by simpa using h
    have hlen : ¬n ≤ (held ++ [b]).length := by rw [List.length_append] at hnow; omega
    rw [assemble, if_neg hlen, ih hnow, List.append_assoc]
    rfl

theorem assemble_full {n : Nat} {held bs : List Byte} (hne : bs ≠ []) (h : (held ++ bs).length = n) :
    assemble n held bs = ([held ++ bs], []) := by
  induction bs generalizing held with
  | nil => exact absurd rfl hne
  | cons b bs ih =>
    have hnow : ((held ++ [b]) ++ bs).length = n := by simpa using h
    rw [assemble]
    cases bs with
    | nil =>
      rw [if_pos (by simpa using hnow.ge)]
      rfl
    | cons c cs =>
      have hlen : ¬n ≤ (held ++ [b]).length := by rw [List.length_append, List.length_cons] at hnow; omega
      rw [if_neg hlen, ih (List.cons_ne_nil _ _) hnow, List.append_assoc]
      rfl

/-! ### Ports written twice -/

theorem setSen_setSen (s : State) (u : SenUnit) (p q : InertialPort) : (s.setSen u p).setSen u q = s.setSen u q := by
  cases u <;> rfl

theorem setEnc_setEnc (s : State) (k : Axis) (p q : EncoderPort) : (s.setEnc k p).setEnc k q = s.setEnc k q := by
  cases k <;> rfl

theorem sen_setSen_same (s : State) (u : SenUnit) (p : InertialPort) : (s.setSen u p).si.sen.get u = p := by cases u <;> rfl

theorem enc_setEnc_same (s : State) (k : Axis) (p : EncoderPort) : (s.setEnc k p).si.enc.get k = p := by cases k <;> rfl

/-- A write of a port that leaves it fresh or stale lets nothing come about. -/
theorem AtRest.setSen {s : State} (h : AtRest s) {u : SenUnit} {p : InertialPort} (hp : p.fresh = (s.si.sen.get u).fresh) :
    AtRest (s.setSen u p) := h.same { ports := .setSen hp } {}

theorem AtRest.setEnc {s : State} (h : AtRest s) {k : Axis} {p : EncoderPort} (hp : p.fresh = (s.si.enc.get k).fresh) :
    AtRest (s.setEnc k p) := h.same { ports := .setEnc hp } {}

/-! ### Whole and partial records -/

/-- The bytes that complete a record, and no more, let it be judged (R1, R3). -/
theorem senBytesIn_full {s : State} {u : SenUnit} {bs : List Byte} (hpark : s.le.park ≠ .parked) (hne : bs ≠ [])
    (hlen : ((s.si.sen.get u).held ++ bs).length = 20) :
    s.senBytesIn u bs =
      (s.setSen u (({ s.si.sen.get u with held := [] } : InertialPort).take ((s.si.sen.get u).held ++ bs))).settle [] := by
  unfold State.senBytesIn
  rw [if_neg hpark, assemble_full hne hlen]
  simp only [List.foldl_cons, List.foldl_nil, State.takeInertial, State.holdSen, sen_setSen_same, setSen_setSen]

theorem senBytesIn_short {s : State} {u : SenUnit} {bs : List Byte} (hpark : s.le.park ≠ .parked)
    (hlen : ((s.si.sen.get u).held ++ bs).length < 20) :
    s.senBytesIn u bs = s.setSen u { s.si.sen.get u with held := (s.si.sen.get u).held ++ bs } := by
  unfold State.senBytesIn
  rw [if_neg hpark, assemble_short hlen]
  rfl

theorem encBytesIn_full {s : State} {k : Axis} {bs : List Byte} (hpark : s.le.park ≠ .parked) (hne : bs ≠ [])
    (hlen : ((s.si.enc.get k).held ++ bs).length = 4) :
    s.encBytesIn k bs =
      (s.setEnc k (({ s.si.enc.get k with held := [] } : EncoderPort).take ((s.si.enc.get k).held ++ bs))).settle [] := by
  unfold State.encBytesIn
  rw [if_neg hpark, assemble_full hne hlen]
  simp only [List.foldl_cons, List.foldl_nil, State.takeEncoder, State.holdEnc, enc_setEnc_same, setEnc_setEnc]

theorem encBytesIn_short {s : State} {k : Axis} {bs : List Byte} (hpark : s.le.park ≠ .parked)
    (hlen : ((s.si.enc.get k).held ++ bs).length < 4) :
    s.encBytesIn k bs = s.setEnc k { s.si.enc.get k with held := (s.si.enc.get k).held ++ bs } := by
  unfold State.encBytesIn
  rw [if_neg hpark, assemble_short hlen]
  rfl

theorem inertialGood_iff (r : List Byte) :
    inertialGood r = true ↔ crc8 (r.take 19) = byteAt r 19 ∧ byteAt r 0 = 0xB0 ∧ (byteAt r 18).getLsbD 0 = false := by
  simp [inertialGood, and_assoc]

/-- Settles O7: each outcome of the judging, written into the slot and the counters. -/
theorem inertialRecordIsJudged : Obligations.InertialRecordIsJudged := by
  intro u bs s hpark hne hlen p r
  have hexec : exec (.inertialSampleRecord u bs) s =
      .next ((s.setSen u (({ p with held := [] } : InertialPort).take r)).settle []) :=
    congrArg Host.Outcome.next (senBytesIn_full hpark hne hlen)
  rw [hexec, ← inertialGood_iff]
  refine ⟨fun hgood => ⟨fun hseq => ?_, fun hseq hrest => ?_⟩, fun hbad hrest => ?_⟩
  · have htake : ({ p with held := [] } : InertialPort).take r = ({ p with held := [] } : InertialPort).accept r := by
      unfold InertialPort.take
      rw [if_pos hgood, if_neg hseq]
    rw [htake]
    rfl
  · have htake : ({ p with held := [] } : InertialPort).take r = { p with held := [], duplicate := satInc p.duplicate } := by
      unfold InertialPort.take
      rw [if_pos hgood, if_pos hseq]
    rw [htake]
    exact congrArg _ (settle_atRest (hrest.setSen rfl))
  · have htake : ({ p with held := [] } : InertialPort).take r = { p with held := [], rejected := satInc p.rejected } := by
      unfold InertialPort.take
      rw [if_neg hbad]
    rw [htake]
    exact congrArg _ (settle_atRest (hrest.setSen rfl))

/-- The position of an encoder record as a number: its first three bytes without the last four bits. -/
theorem encoderPosition_eq (r : List Byte) :
    encoderPosition r = BitVec.ofNat 20 (((byteAt r 0).toNat * 65536 + (byteAt r 1).toNat * 256 + (byteAt r 2).toNat) / 16) := by
  have h1 := (byteAt r 1).isLt
  have h2 := (byteAt r 2).isLt
  apply BitVec.eq_of_toNat_eq
  unfold encoderPosition
  rw [BitVec.extractLsb'_toNat, BitVec.toNat_append, BitVec.toNat_append, BitVec.toNat_ofNat, Nat.shiftRight_eq_div_pow,
    ← Nat.shiftLeft_add_eq_or_of_lt h1, ← Nat.shiftLeft_add_eq_or_of_lt h2, Nat.shiftLeft_eq, Nat.shiftLeft_eq]
  have hsum (a b c : Nat) : (a * 2 ^ 8 + b) * 2 ^ 8 + c = a * 65536 + b * 256 + c := by ring
  rw [hsum]

theorem encoderGood_iff (r : List Byte) : encoderGood r = true ↔ crc8 (r.take 3) = byteAt r 3 ∧ (byteAt r 2).toNat % 16 = 0 := by
  have hzero : (byteAt r 2).extractLsb' 0 4 = (0 : BitVec 4) ↔ (byteAt r 2).toNat % 16 = 0 := by
    rw [← BitVec.toNat_inj, BitVec.extractLsb'_toNat]
    simp
  unfold encoderGood
  rw [Bool.and_eq_true, beq_iff_eq, beq_iff_eq, hzero]

/-- Settles O8: a record is accepted with its position, or rejected. -/
theorem encoderRecordIsJudged : Obligations.EncoderRecordIsJudged := by
  intro k bs s hpark hne hlen p r
  have hexec : exec (.encoderRecord k bs) s = .next ((s.setEnc k (({ p with held := [] } : EncoderPort).take r)).settle []) :=
    congrArg Host.Outcome.next (encBytesIn_full hpark hne hlen)
  rw [hexec, ← encoderGood_iff, ← encoderPosition_eq]
  refine ⟨fun hgood => ?_, fun hbad hrest => ?_⟩
  · rw [EncoderPort.take, if_pos hgood]
  · rw [EncoderPort.take, if_neg hbad]
    exact congrArg _ (settle_atRest (hrest.setEnc rfl))

/-- Settles O9: nothing is judged before a record is whole; a PARKED part reads no sensor byte; a silence empties the assembler. -/
theorem partialRecordsAreHeldAndDiscarded : Obligations.PartialRecordsAreHeldAndDiscarded := by
  intro u k bs s p e l
  have hparked (hpark : s.le.park = .parked) : s.senBytesIn u bs = s ∧ s.encBytesIn k bs = s := ⟨if_pos hpark, if_pos hpark⟩
  refine ⟨fun hpark hlen => congrArg _ (senBytesIn_short hpark hlen), fun hpark hlen => congrArg _ (encBytesIn_short hpark hlen),
    fun hlen => ?_, fun hpark => ⟨congrArg _ (hparked hpark).1, congrArg _ (hparked hpark).2⟩, ?_, ?_, rfl⟩
  · show Host.Outcome.next (s.drvBytesIn k bs) = _
    unfold State.drvBytesIn
    rw [assemble_short hlen]
    rfl
  · show Host.Outcome.next (s.discardPartial (.sen u)) = _
    unfold State.discardPartial
    simp only [List.isEmpty_iff]
    rfl
  · show Host.Outcome.next (s.discardPartial (.enc k)) = _
    unfold State.discardPartial
    simp only [List.isEmpty_iff]
    rfl

end Sys2Proof.Machine
end

section
/-! PROOFS. The hold law's arithmetic: the joint step, the estimation, the target step, the output chain, the link's counters. -/

namespace Sys2Proof.Machine

/-! ### Report requests and misses (R123, R124) -/

theorem countRequest_below {l : DriveLink} {every : Nat} (h : l.requestCount + 1 < every) :
    l.countRequest every = ({ l with requestCount := l.requestCount + 1 }, false) := by
  unfold DriveLink.countRequest
  rw [if_neg (by omega), if_neg (by omega)]

theorem countRequest_reached {l : DriveLink} {every : Nat} (h0 : 1 ≤ every) (h : every ≤ l.requestCount + 1) :
    l.countRequest every = ({ l with requestCount := 0 }, true) := by
  unfold DriveLink.countRequest
  rw [if_neg (by omega), if_pos h]

/-- Below the request the counter counts the computations. -/
theorem countRequest_iterate {l : DriveLink} {every j : Nat} (h0 : l.requestCount = 0) (h : j < every) :
    (fun x : DriveLink => (x.countRequest every).1)^[j] l = { l with requestCount := j } := by
  induction j with
  | zero => rw [Function.iterate_zero, id, ← h0]
  | succ j ih =>
    rw [Function.iterate_succ_apply', ih (by omega)]
    exact congrArg Prod.fst (countRequest_below (l := { l with requestCount := j }) h)

/-- Settles O14: the counter after j computations is j, so the m-th reaches m. -/
theorem reportRequestsAndMisses : Obligations.ReportRequestsAndMisses := by
  intro l every limit
  refine ⟨fun h1 h0 => ⟨fun j hj => ?_, ?_, ?_⟩, rfl, fun hout => ?_, fun hout hmiss => ?_, fun hout hmiss => ?_⟩
  · rw [countRequest_iterate h0 (by omega), countRequest_below hj]
  · rw [countRequest_iterate h0 (by omega), countRequest_reached h1 (by simp only; omega)]
  · obtain ⟨m, rfl⟩ : ∃ m, every = m + 1 := ⟨every - 1, by omega⟩
    rw [Function.iterate_succ_apply', countRequest_iterate h0 (by omega), countRequest_reached h1 le_rfl, ← h0]
  · rw [DriveLink.checkMiss, if_neg (by simp [hout])]
  · rw [DriveLink.checkMiss, if_pos hout, if_neg (by omega)]
  · rw [DriveLink.checkMiss, if_pos hout, if_pos hmiss]

/-! ### The joint step (R10 to R12) -/

theorem toInt_sat32 (x : Int) : (sat32 x).toInt = max (-2147483648) (min 2147483647 x) := by
  rw [sat32, clampInt_eq_max_min (by decide), BitVec.toInt_ofInt]
  unfold int32Min int32Max
  exact Int.bmod_eq_of_le (by omega) (by omega)

theorem seeded_toInt (p : BitVec 20) :
    (seeded p).toInt = if p.toNat ≤ 524287 then 16 * (p.toNat : Int) else 16 * (p.toNat : Int) - 16777216 := by
  have hlt := p.isLt
  unfold seeded
  split_ifs
  · exact toInt_ofInt32 (by omega)
  · omega
  · omega
  · exact toInt_ofInt32 (by omega)

theorem jointStep_old {s : State} {k : Axis} (h : (s.si.enc.get k).newPos = false) : s.jointStep k = s := by
  unfold State.jointStep
  dsimp only
  rw [h]
  rfl

/-- J after a new position (R11, R12). -/
def jointAngle (s : State) (k : Axis) : Word :=
  match (s.axis k).lastEncoder with
  | some last => unwrapped (s.axis k).j last (s.si.enc.get k).position
  | none => seeded (s.si.enc.get k).position

theorem jointStep_new {s : State} {k : Axis} (h : (s.si.enc.get k).newPos = true) :
    s.jointStep k =
      (s.setEnc k { s.si.enc.get k with newPos := false }).setAxis k
        { s.axis k with j := jointAngle s k, lastEncoder := some (s.si.enc.get k).position } := by
  unfold State.jointStep
  dsimp only
  rw [if_pos h]
  rfl

/-- Settles O17: the delta is the position's difference brought into the half turn either side, its sixteenfold added with saturation. -/
theorem jointStepUnwrapsOrSeeds : Obligations.JointStepUnwrapsOrSeeds := by
  intro s k e a t b
  refine ⟨fun hold => jointStep_old hold, fun hnew => ?_⟩
  have ht : t = _ := jointStep_new hnew
  have hb : b = { a with j := jointAngle s k, lastEncoder := some e.position } := by
    show t.axis k = _
    rw [ht, State.axis_setAxis_same]
  refine ⟨by rw [ht, hb], fun last hlast => ?_, fun hnone => ?_⟩
  · have hp := e.position.isLt
    have hl := last.isLt
    refine ⟨((e.position.toNat : Int) - last.toNat + 524288) % 1048576 - 524288, by omega, by omega, by omega, ?_⟩
    rw [hb]
    simp only [jointAngle, show (s.axis k).lastEncoder = some last from hlast]
    exact toInt_sat32 _
  · rw [hb]
    simp only [jointAngle, show (s.axis k).lastEncoder = none from hnone]
    exact seeded_toInt _

/-! ### World angles -/

/-- A change that no wrap undoes is the difference it makes. -/
theorem wrapDiff_wrapAdd_self (w : Word) {d : Int} (h : d.natAbs ≤ 2147483647) : wrapDiff (wrapAdd w d) w = d := by
  unfold wrapDiff wrapAdd
  rw [show w + BitVec.ofInt 32 d - w = BitVec.ofInt 32 d by ring]
  exact toInt_ofInt32 h

theorem wrapDiff_bounds (a b : Word) : -2147483648 ≤ wrapDiff a b ∧ wrapDiff a b ≤ 2147483647 := by
  have hlow := BitVec.le_toInt (a - b)
  have hhigh := BitVec.toInt_lt (x := a - b)
  unfold wrapDiff
  omega

/-- An angle that moves toward another, not past it, closes the difference by as much. -/
theorem wrapDiff_wrapAdd_toward (a b : Word) {d : Int} (h : min 0 (wrapDiff a b) ≤ wrapDiff a b - d)
    (h' : wrapDiff a b - d ≤ max 0 (wrapDiff a b)) : wrapDiff a (wrapAdd b d) = wrapDiff a b - d := by
  have hbounds := wrapDiff_bounds a b
  have hdiff : a - (b + BitVec.ofInt 32 d) = BitVec.ofInt 32 (wrapDiff a b - d) := by
    rw [sub_eq_add_neg (wrapDiff a b), BitVec.ofInt_add, BitVec.ofInt_neg, wrapDiff, BitVec.ofInt_toInt]
    ring
  unfold wrapAdd
  rw [show wrapDiff a (b + BitVec.ofInt 32 d) = (a - (b + BitVec.ofInt 32 d)).toInt from rfl, hdiff, BitVec.toInt_ofInt]
  exact Int.bmod_eq_of_le (by omega) (by omega)

/-- Truncated division by a power of two: the magnitude is divided, the sign stays. -/
theorem tdiv_pow_facts (x : Int) (c : Nat) :
    (x.tdiv (2 ^ c)).natAbs = x.natAbs / 2 ^ c ∧ (0 ≤ x → 0 ≤ x.tdiv (2 ^ c)) ∧ (x ≤ 0 → x.tdiv (2 ^ c) ≤ 0) := by
  have hpos : (0 : Int) ≤ 2 ^ c := by positivity
  refine ⟨?_, fun h => Int.tdiv_nonneg h hpos, fun h => ?_⟩
  · rw [Int.natAbs_tdiv, Int.natAbs_pow]
    rfl
  · have hneg := Int.tdiv_nonneg (Int.neg_nonneg.mpr h) hpos
    rw [Int.neg_tdiv] at hneg
    omega

/-! ### Estimation (R44 to R50) -/

theorem gyroTerm_eq (s : State) (k : Axis) :
    gyroTerm s k =
      if (s.si.sen.get (feedbackUnit k)).fresh then
        max (-32767) (min 32767 (feedbackRate k (s.si.sen.get (feedbackUnit k)).slot - (s.axis k).active.gyroBias))
      else 0 := by
  unfold gyroTerm
  dsimp only
  rw [clampSym_eq_max_min (by decide)]

theorem estimate_old {s : State} {k : Axis} (h : (s.si.enc.get k).newPos = false) (n : Nat) :
    (s.estimate k n).axis k =
      if isHeading k then headed s k (integrated s k n) else leveled s k (integrated s k n) := by
  rw [estimate_axis_same, jointStep_old h]

theorem gravityValid_iff {s : State} {u : SenUnit} (hu : u ≠ .base) :
    gravityValid s u = true ↔
      (s.si.sen.get u).fresh = true ∧ 1000 ≤ (s.si.sen.get u).slot.accel.toNat + s.cl.setup.gravBand ∧
        (s.si.sen.get u).slot.accel.toNat ≤ 1000 + s.cl.setup.gravBand := by
  simp only [gravityValid, hu, ne_eq, not_false_iff, decide_true, Bool.true_and, Bool.and_eq_true, decide_eq_true_eq]
  refine and_congr_right fun _ => ?_
  omega

theorem levelStep_facts (gref w : Word) (c cap : Nat) :
    let d := wrapDiff gref w
    let x := levelStep gref w c cap
    x.natAbs ≤ cap ∧ x.natAbs * 2 ^ c ≤ d.natAbs ∧ 0 ≤ x * d ∧
    (d.natAbs < cap * 2 ^ c → x = d.tdiv (2 ^ c)) ∧
    (cap * 2 ^ c ≤ d.natAbs → x = if 0 < d then (cap : Int) else -(cap : Int)) := by
  intro d x
  obtain ⟨hmag, hpos, hneg⟩ := tdiv_pow_facts d c
  have hx : x = max (-(cap : Int)) (min cap (d.tdiv (2 ^ c))) := clampSym_eq_max_min (Nat.cast_nonneg _) _
  have hle : x.natAbs ≤ (d.tdiv (2 ^ c)).natAbs := by omega
  refine ⟨by omega, ?_, ?_, fun hsmall => ?_, fun hbig => ?_⟩
  · calc x.natAbs * 2 ^ c ≤ d.natAbs / 2 ^ c * 2 ^ c := Nat.mul_le_mul_right _ (hmag ▸ hle)
      _ ≤ d.natAbs := Nat.div_mul_le_self _ _
  · rcases le_total 0 d with hd | hd
    · exact mul_nonneg (by have := hpos hd; omega) hd
    · exact mul_nonneg_of_nonpos_of_nonpos (by have := hneg hd; omega) hd
  · have hlt : d.natAbs / 2 ^ c < cap := Nat.div_lt_of_lt_mul (by rwa [mul_comm])
    omega
  · have hge : cap ≤ d.natAbs / 2 ^ c := (Nat.le_div_iff_mul_le (by positivity)).mpr hbig
    split_ifs with hd
    · have := hpos hd.le
      omega
    · have := hneg (not_lt.mp hd)
      omega

theorem levelCap_le {r : Tuning} (h : r.ok = true) : r.levelCap ≤ 65535 := by
  have hrange := r.fieldInRange_of_ok h (n := 19) (by omega)
  simp only [fieldInRange, fieldBounds, Tuning.field, Bool.and_eq_true, decide_eq_true_eq] at hrange
  omega

theorem feedbackUnit_level {k : Axis} (h : isHeading k = false) : feedbackUnit k = if k = .lift then .tip else .head := by
  cases k <;> first | rfl | cases h

theorem feedbackRate_level {k : Axis} (h : isHeading k = false) (x : InertialSlot) :
    feedbackRate k x = (if k = .roll then x.roll else x.pitch).toInt := by
  cases k <;> first | rfl | cases h

theorem gravityRef_level {k : Axis} (x : InertialSlot) : gravityRef k x = if k = .roll then x.levelRoll else x.levelPitch := by
  cases k <;> rfl

/-- Settles O18: the levelling step is a clamp of the truncated gap, whose magnitude is the gap's divided and whose sign is the gap's. -/
theorem levelAxisEstimation : Obligations.LevelAxisEstimation := by
  intro s k n hlevel hold hok u a b g rate w gref band valid
  have hunit := feedbackUnit_level hlevel
  have hb : b = leveled s k (integrated s k n) := by
    show (s.estimate k n).axis k = _
    rw [estimate_old hold, hlevel]
    rfl
  have hu : s.si.sen.get (feedbackUnit k) = u := by rw [hunit]
  have hw : integrated s k n = w := by
    unfold integrated
    rw [hu]
    rfl
  have hgref : gravityRef k (s.si.sen.get (feedbackUnit k)).slot = gref := by rw [hu, gravityRef_level]
  have hvalid : gravityValid s (feedbackUnit k) = true ↔ valid := by
    rw [gravityValid_iff (by rw [hunit]; split <;> nofun), hu]
  have hg : g = if u.fresh then max (-32767) (min 32767 (rate.toInt - a.active.gyroBias)) else 0 := by
    show gyroTerm s k = _
    rw [gyroTerm_eq, hu, feedbackRate_level hlevel]
  refine ⟨fun hf => by rw [hg, if_pos hf], fun hf => by rw [hg, hf]; rfl, by rw [← hunit]; exact hvalid, rfl, fun hv => ?_, fun hv => ?_⟩
  · have hleveled : b = if a.mode = .off ∨ a.mode = .stopped then { a with w := gref }
        else { a with w := wrapAdd w (levelStep gref w a.active.levelShift a.active.levelCap), coastCount := 0 } := by
      rw [hb]
      unfold leveled
      dsimp only
      rw [if_pos (hvalid.mpr hv), hgref, hw]
    refine ⟨fun hm => by rw [hleveled, if_pos hm], fun hoff hstop => ?_⟩
    rw [if_neg (by simp [hoff, hstop])] at hleveled
    have hcap : a.active.levelCap ≤ 65535 := levelCap_le hok
    obtain ⟨hle, hmul, hsign, hwhole, hcapped⟩ := levelStep_facts gref w a.active.levelShift a.active.levelCap
    have hstep : wrapDiff b.w w = levelStep gref w a.active.levelShift a.active.levelCap := by
      rw [hleveled]
      exact wrapDiff_wrapAdd_self w (by omega)
    rw [hstep]
    exact ⟨by rw [hleveled], hle, hmul, hsign, hwhole, hcapped⟩
  · have hleveled : b = if isActive a.mode then { a with w := w, coastCount := satInc a.coastCount } else { a with w := w } := by
      rw [hb]
      unfold leveled
      dsimp only
      rw [if_neg (hvalid.not.mpr hv), hw]
    exact ⟨fun hm => by rw [hleveled, if_pos hm], fun hm => by rw [hleveled, hm]; rfl⟩

theorem feedbackUnit_heading {k : Axis} (h : isHeading k = true) : feedbackUnit k = if k = .swing then .tip else .head := by
  cases k <;> first | rfl | cases h

theorem feedbackRate_heading {k : Axis} (h : isHeading k = true) (x : InertialSlot) : feedbackRate k x = x.yaw.toInt := by
  cases k <;> first | rfl | cases h

theorem jointSum_heading {s : State} {k : Axis} (h : isHeading k = true) :
    jointSum s k = if k = .pan then (s.axis .swing).j.toInt + (s.axis k).j.toInt else (s.axis k).j.toInt := by
  cases k <;> first | rfl | cases h

/-- Settles O19: F moves by the truncated part of its gap, which lies between nothing and the whole gap. -/
theorem headingAxisEstimation : Obligations.HeadingAxisEstimation := by
  intro s k n hheading hold hok u a b g w sum
  have hu : s.si.sen.get (feedbackUnit k) = u := by rw [feedbackUnit_heading hheading]
  have hw : integrated s k n = w := by
    unfold integrated
    rw [hu]
    rfl
  have hb : b = headed s k w := by
    show (s.estimate k n).axis k = _
    rw [estimate_old hold, if_pos hheading, hw]
  have hgap : wrapDiff s.le.heading b.f =
      wrapDiff s.le.heading a.f - (wrapDiff s.le.heading a.f).tdiv (2 ^ a.active.followShift) := by
    obtain ⟨hmag, hpos, hneg⟩ := tdiv_pow_facts (wrapDiff s.le.heading a.f) a.active.followShift
    have hle : (wrapDiff s.le.heading a.f).natAbs / 2 ^ a.active.followShift ≤ (wrapDiff s.le.heading a.f).natAbs := Nat.div_le_self _ _
    rw [hb]
    exact wrapDiff_wrapAdd_toward s.le.heading a.f (d := (wrapDiff s.le.heading a.f).tdiv (2 ^ a.active.followShift)) (by omega)
      (by omega)
  refine ⟨?_, by rw [hb]; rfl, hgap, ?_, ?_⟩
  · show gyroTerm s k = _
    rw [gyroTerm_eq, hu, feedbackRate_heading hheading]
  · obtain ⟨hmag, hpos, hneg⟩ := tdiv_pow_facts (wrapDiff s.le.heading a.f) a.active.followShift
    have hle : (wrapDiff s.le.heading a.f).natAbs / 2 ^ a.active.followShift ≤ (wrapDiff s.le.heading a.f).natAbs := Nat.div_le_self _ _
    rw [hgap]
    omega
  · rw [hb]
    show (if _ then wrapAdd s.le.heading (jointSum s k) else w) = _
    rw [jointSum_heading hheading]
    rfl

/-! ### The target step outside MOVE (R51 to R54) -/

theorem targetRule_rate {a : AxisRec} (h : a.mode = .rate) (k : Axis) (n : Nat) :
    targetRule k a n = ({ a with rdEff := half16 (rampedRate a), t := wrapAdd a.t (n * rampedRate a) }, none) := by
  unfold targetRule
  rw [h]

theorem targetRule_hold {a : AxisRec} (h : a.mode = .hold) (k : Axis) (n : Nat) : targetRule k a n = (a, none) := by
  unfold targetRule
  rw [h]

theorem targetRule_follow {a : AxisRec} (h : a.mode = .follow) (k : Axis) (n : Nat) :
    targetRule k a n = ({ a with t := a.f + a.o }, none) := by
  unfold targetRule
  rw [h]

/-- Settles O20: the ramp is a clamp of the gap between the rates; the rate formed from T divides the N-fold rate by N again. -/
theorem rateRampNeverPassesDemand : Obligations.RateRampNeverPassesDemand := by
  refine ⟨?rate, fun k a n => ⟨fun hmode => ?hold, fun hmode => targetRule_follow hmode k n⟩, ?change⟩
  case rate =>
    intro k a n hmode hrange hn b
    have hrule := targetRule_rate hmode k n
    have hbetween := rampedRate_between a
    have hle := hrange.rampedRate_le
    obtain ⟨hactive, -, -, -, heff, htarget⟩ := hrange
    have hmax := (Tuning.bounds_of_ok hactive).rmax
    have hramped : rampedRate a = a.rdEff.toInt + max (-(a.active.amax : Int)) (min a.active.amax (a.rdTarget.toInt - a.rdEff.toInt)) := by
      rw [rampedRate, clampSym_eq_max_min (Nat.cast_nonneg _)]
    have heffnew : b.rdEff.toInt = rampedRate a := by
      show (targetRule k a n).1.rdEff.toInt = _
      rw [hrule]
      exact toInt_half16 (by omega)
    have ht : b.t = wrapAdd a.t (n * rampedRate a) := by
      show (targetRule k a n).1.t = _
      rw [hrule]
    have hproduct : (n * rampedRate a : Int).natAbs ≤ 8 * 32767 := by
      rw [Int.natAbs_mul, Int.natAbs_natCast]
      exact Nat.mul_le_mul (by omega) (by omega)
    have hrate : targetRate a.t b.t n = rampedRate a := by
      rw [targetRate, ht, wrapDiff_wrapAdd_self _ (by omega), Int.mul_tdiv_cancel_left _ (by omega),
        clampSym_eq_max_min (by decide)]
      omega
    refine ⟨by rw [hrule], ?_, by omega, by omega, by omega, fun hclose => ?_, fun hfar => by omega, by omega, by rw [hrate, heffnew]⟩
    · rw [heffnew]
      show (targetRule k a n).1 = { a with rdEff := (targetRule k a n).1.rdEff, t := _ }
      rw [hrule]
      rfl
    · apply BitVec.eq_of_toInt_eq
      omega
  case hold =>
    rw [targetRule_hold hmode]
    have hzero : wrapDiff a.t a.t = 0 := by unfold wrapDiff; rw [sub_self]; rfl
    refine ⟨rfl, ?_⟩
    rw [targetRate, hzero, Int.zero_tdiv]
    rfl
  case change =>
    intro before after n hn change rate
    have hrate : rate = max (-32767) (min 32767 (change.tdiv n)) := by
      show clampSym (change.tdiv n) 32767 = _
      rw [clampSym_eq_max_min (by decide)]
    have hmag : (change.tdiv n).natAbs = change.natAbs / n := by rw [Int.natAbs_tdiv]; rfl
    have hpos : 0 ≤ change → 0 ≤ change.tdiv n := fun h => Int.tdiv_nonneg h (Nat.cast_nonneg _)
    have hneg : change ≤ 0 → change.tdiv n ≤ 0 := fun h => by
      have := Int.tdiv_nonneg (Int.neg_nonneg.mpr h) (Nat.cast_nonneg n)
      rw [Int.neg_tdiv] at this
      omega
    refine ⟨by omega, fun h => ?_, fun h => ?_⟩
    · by_contra hc
      have := hneg (by omega)
      omega
    · by_contra hc
      have := hpos (by omega)
      omega

/-! ### The output chain (R55 to R62) -/

theorem angleError_eq (t w : Word) : angleError t w = max (-4194304) (min 4194304 (wrapDiff t w)) :=
  clampSym_eq_max_min (by decide) _

/-- The integrator stands while the error points into the limit that is reached (R56). -/
abbrev Blocked (a : AxisRec) (e : Int) : Prop :=
  (0 < e ∧ (a.satFlag = .high ∨ a.pinState = .high)) ∨ (e < 0 ∧ (a.satFlag = .low ∨ a.pinState = .low))

theorem updatedIntegrator_blocked {a : AxisRec} {e : Int} (h : Blocked a e) : updatedIntegrator a e = a.i := if_pos h

theorem updatedIntegrator_free {a : AxisRec} {e : Int} (ha : a.active.imax ≤ 1073741824) (h : ¬Blocked a e) :
    (updatedIntegrator a e).toInt = max (-(a.active.imax : Int)) (min a.active.imax (a.i.toInt + e)) := by
  have hle := natAbs_clampSym_le (a.i.toInt + e) a.active.imax
  rw [updatedIntegrator, if_neg h, toInt_ofInt32 (by omega), clampSym_eq_max_min (Nat.cast_nonneg _)]

/-- R60's demand, with its clamps written out. -/
theorem slewed_eq {u1 prev l limit : Int} (hl : 0 ≤ l) (hlimit : 0 ≤ limit) :
    slewed (clampSym u1 limit) prev l limit =
      max (-limit) (min (max (prev - l) (min (max (-limit) (min u1 limit)) (prev + l))) limit) := by
  rw [slewed, clampSym_eq_max_min hlimit, clampSym_eq_max_min hlimit, clampInt_eq_max_min (by omega)]
  simp only [min_comm]

/-- The demand lies within the limit, within the slew window where the last one does, and is the rounded sum where both let it be. -/
theorem slew_bounds {u1 prev l limit : Int} (hl : 0 ≤ l) (hlimit : 0 ≤ limit) {u : Int}
    (hu : u = max (-limit) (min (max (prev - l) (min (max (-limit) (min u1 limit)) (prev + l))) limit)) :
    u.natAbs ≤ limit ∧ (prev.natAbs ≤ limit → (u - prev).natAbs ≤ l) ∧ (u1.natAbs ≤ limit → (u1 - prev).natAbs ≤ l → u = u1) := by
  omega

/-- The rounding to nearest, halves upward (R58). -/
theorem roundDemand_bounds {raw u : Int} (h : u = (raw + 524288) / 1048576) :
    raw - 524288 < u * 1048576 ∧ u * 1048576 ≤ raw + 524288 := by omega

theorem pinOf_none_iff (r : Tuning) (j : Word) (u : Int) :
    pinOf r j u = .none ↔ ¬(r.jmax ≤ j.toInt ∧ 0 < u) ∧ ¬(j.toInt ≤ r.jmin ∧ u < 0) := by
  unfold pinOf
  split_ifs with h1 h2
  · exact ⟨nofun, fun h => absurd h1 h.1⟩
  · exact ⟨nofun, fun h => absurd h2 h.2⟩
  · exact ⟨fun _ => ⟨h1, h2⟩, fun _ => rfl⟩

/-- Settles O22: the chain's demand is the rounding of its sum, and the pin step sends it whole, since Umax is in its range. -/
theorem outputChainLimitsDemand : Obligations.OutputChainLimitsDemand := by
  intro ring k a g rd hrange hg hrd b r e raw limit blocked within
  obtain ⟨hlow, hhigh⟩ := umaxEff_bounds hrange
  obtain ⟨hactive, -⟩ := hrange
  have hb := Tuning.bounds_of_ok hactive
  have himax := hb.imax
  have humax := hb.umax
  have he : angleError a.t a.w = e := angleError_eq _ _
  have hi : b.i = updatedIntegrator a e := by rw [← he]; rfl
  have hlimit : umaxEff a = limit := rfl
  rw [hlimit] at hlow hhigh
  have hl : (0 : Int) ≤ r.l := Nat.cast_nonneg _
  have hraw : chainDemand ring k a g rd = (raw + 524288) / 1048576 := by
    unfold chainDemand
    dsimp only
    rw [he, ← hi]
    rfl
  generalize hu1 : chainDemand ring k a g rd = u1 at hraw
  have hu3 : slewed (clampSym u1 limit) a.uPrev.toInt r.l limit = _ := slewed_eq hl hlow
  refine ⟨u1, ?_⟩
  intro u2 u3
  have hsaturated : slewed (clampSym (chainDemand ring k a g rd) limit) a.uPrev.toInt r.l limit = u3 := by rw [hu1, hu3]
  have hchain : b = pinned { a with
      i := b.i, satFlag := judged u1 limit, satCount := troubleCount a.satCount (judged u1 limit) } u3 := by
    rw [← hsaturated, ← hu1]
    rfl
  obtain ⟨hu3le, hwindow, hwhole⟩ := slew_bounds (u := u3) hl hlow rfl
  obtain ⟨hround, hround'⟩ := roundDemand_bounds hraw
  have hsmall : u3.natAbs ≤ 32767 := by omega
  clear_value u2 u3 raw limit e
  have hflag : b.satFlag = judged u1 limit := by rw [hchain]; rfl
  have hpin : b.pinState = pinOf r a.j u3 := by rw [hchain]; rfl
  have hprev : b.uPrev.toInt = if b.pinState = .none then u3 else 0 := by
    rw [hchain]
    exact pinned_uPrev_toInt _ hsmall
  have hpinned : b.pinState = if r.jmax ≤ a.j.toInt ∧ 0 < u3 then .high else if a.j.toInt ≤ r.jmin ∧ u3 < 0 then .low else .none := hpin
  have hnone : b.pinState = .none ↔ ¬(r.jmax ≤ a.j.toInt ∧ 0 < u3) ∧ ¬(a.j.toInt ≤ r.jmin ∧ u3 < 0) := by
    rw [hpin]
    exact pinOf_none_iff r a.j u3
  refine ⟨hpinned, hprev, hround, hround', fun h => ?_, fun h => ?_, hflag, ?_, ?_, ?_, fun hp hprevle => ?_, fun hp hle hwin => ?_,
    fun hp => ?_, fun hj => ?_, fun hj => ?_, fun hj1 hj2 => ?_, ?_⟩
  · rw [hi, updatedIntegrator_blocked h]
  · rw [hi, updatedIntegrator_free himax h]
  · rw [hchain]; rfl
  · rw [hchain]; rfl
  · rw [hprev]
    split
    · exact hu3le
    · exact hlow
  · rw [hprev, if_pos hp]; exact_mod_cast hwindow hprevle
  · rw [hprev, if_pos hp]; exact hwhole hle (by exact_mod_cast hwin)
  · apply BitVec.eq_of_toInt_eq
    rw [hprev, if_neg hp]; rfl
  · rw [hprev]
    split
    · next hp => exact not_lt.mp fun hu => (hnone.mp hp).1 ⟨hj, hu⟩
    · exact le_rfl
  · rw [hprev]
    split
    · next hp => exact not_lt.mp fun hu => (hnone.mp hp).2 ⟨hj, hu⟩
    · exact le_rfl
  · exact hnone.mpr ⟨fun h => absurd h.1 (not_le.mpr hj2), fun h => absurd h.1 (not_le.mpr hj1)⟩
  · rfl

end Sys2Proof.Machine
end

section
/-! PROOFS. Events on the drive links, the trigger lines and the request side of the console link. -/

namespace Sys2Proof.Machine

/-! ### Drive links (R120, R125) -/

theorem hand_idle {l : DriveLink} (h : l.sending = none) (w : DriveWord) : l.hand w = l.start w := if_pos (by rw [h]; rfl)

theorem hand_sending {l : DriveLink} {v : DriveWord} (h : l.sending = some v) (w : DriveWord) :
    l.hand w = { l with waiting := some w } := if_neg (by rw [h]; nofun)

theorem wordSent_idle {l : DriveLink} (h : l.sending = none) : l.wordSent = l := by
  unfold DriveLink.wordSent
  rw [h]

theorem wordSent_last {l : DriveLink} {v : DriveWord} (h : l.sending = some v) (hw : l.waiting = none) :
    l.wordSent = { l with sending := none } := by
  unfold DriveLink.wordSent
  rw [h, hw]

theorem wordSent_next {l : DriveLink} {v w : DriveWord} (h : l.sending = some v) (hw : l.waiting = some w) :
    l.wordSent =
      { l with sending := some w, waiting := none, lastWord := some w, outstanding := l.outstanding || w.request } := by
  unfold DriveLink.wordSent
  rw [h, hw]
  rfl

theorem setLink_self (s : State) (k : Axis) : s.setLink k (s.dl.get k) = s := by cases k <;> rfl

theorem setLink_setLink (s : State) (k : Axis) (l m : DriveLink) : (s.setLink k l).setLink k m = s.setLink k m := by cases k <;> rfl

theorem get_setLink_same (s : State) (k : Axis) (l : DriveLink) : (s.setLink k l).dl.get k = l := by cases k <;> rfl

theorem drvBytesIn_full {s : State} {k : Axis} {bs : List Byte} (hne : bs ≠ []) (hlen : ((s.dl.get k).held ++ bs).length = 5) :
    s.drvBytesIn k bs = (s.setLink k { s.dl.get k with held := [] }).takeReport k ((s.dl.get k).held ++ bs) := by
  unfold State.drvBytesIn
  rw [assemble_full hne hlen]
  rfl

theorem reportGood_iff (r : List Byte) : reportGood r = true ↔ crc8 (r.take 4) = byteAt r 4 := by simp [reportGood]

/-- Settles O25: the transmitter's cases, and a whole report by its CRC. -/
theorem driveLinkEvents : Obligations.DriveLinkEvents := by
  intro k bs s l r
  refine ⟨fun w => ⟨fun h => hand_idle h w, fun v h => hand_sending h w⟩, fun h => ?idle, fun v h hw => ?last, fun v w h hw => ?next,
    fun hne hlen hgood => ?good, fun hne hlen hbad => ?bad⟩
  case idle =>
    show Host.Outcome.next (s.setLink k l.wordSent) = _
    rw [wordSent_idle h, setLink_self]
  case last =>
    show Host.Outcome.next (s.setLink k l.wordSent) = _
    rw [wordSent_last h hw]
  case next =>
    show Host.Outcome.next (s.setLink k l.wordSent) = _
    rw [wordSent_next h hw]
  case good =>
    show Host.Outcome.next (s.drvBytesIn k bs) = _
    rw [drvBytesIn_full hne hlen, State.takeReport, if_pos ((reportGood_iff _).mpr hgood), get_setLink_same, setLink_setLink]
    rfl
  case bad =>
    show Host.Outcome.next (s.drvBytesIn k bs) = _
    rw [drvBytesIn_full hne hlen, State.takeReport, if_neg ((reportGood_iff _).not.mpr hbad)]

/-! ### Trigger lines (R100) -/

theorem setTrig_setTrig (s : State) (line : TrigLine) (a b : Trigger) : (s.setTrig line a).setTrig line b = s.setTrig line b := by
  cases line <;> rfl

theorem setTrig_self (s : State) (line : TrigLine) : s.setTrig line (s.trig line) = s := by cases line <;> rfl

theorem trig_setTrig_same (s : State) (line : TrigLine) (a : Trigger) : (s.setTrig line a).trig line = a := by cases line <;> rfl

/-- An edge taken on a line that stands at the level taken. -/
theorem takeEdge_eq {s : State} {line : TrigLine} {q : Trigger} (level : Bool) (hq : q.line = level) :
    (s.setTrig line q).takeEdge line level =
      if level then ((s.setTrig line ⟨true, true, true, 0⟩).feedCue (.trigger line)).settle [] else s.setTrig line ⟨false, false, true, 0⟩ := by
  obtain ⟨l, acc, off, n⟩ := q
  obtain rfl : l = level := hq
  unfold State.takeEdge
  dsimp only
  rw [trig_setTrig_same, setTrig_setTrig]
  cases l <;> rfl

/-- Settles O27: a change and an expiry end in the same taking of an edge. -/
theorem triggerLineEdges : Obligations.TriggerLineEdges := by
  intro line high s q raised edge
  have hchange (h : q.line ≠ high) : exec (.triggerLineChange (.trig line) high) s =
      .next (if q.holdOff = true ∨ high = q.accepted then s.setTrig line { q with line := high }
        else (s.setTrig line { q with line := high }).takeEdge line high) := by
    show Host.Outcome.next (s.changeLine line high) = _
    unfold State.changeLine
    simp only [show (s.trig line).line ≠ high from h, false_or]
    rfl
  refine ⟨rfl, fun h hoff hacc => ?_, fun h hstay => ?_, fun h => ?_, fun hoff h => ?_, fun hoff h => ?_, fun hoff => ?_⟩
  · rw [hchange h, if_neg (by rw [hoff]; simpa using Ne.symm hacc), takeEdge_eq high rfl]
    rfl
  · rw [hchange h, if_pos (hstay.imp_right Eq.symm)]
  · show Host.Outcome.next (s.changeLine line high) = _
    unfold State.changeLine
    simp only [show (s.trig line).line = high from h, true_or, if_true]
    rw [← h]
    exact congrArg _ (setTrig_self s line)
  · show Host.Outcome.next (s.expireHoldOff line) = _
    unfold State.expireHoldOff
    dsimp only
    rw [if_pos hoff, if_pos h]
  · show Host.Outcome.next (s.expireHoldOff line) = _
    unfold State.expireHoldOff
    dsimp only
    rw [if_pos hoff, if_neg h]
    exact congrArg _ (takeEdge_eq q.line rfl)
  · show Host.Outcome.next (s.expireHoldOff line) = _
    unfold State.expireHoldOff
    dsimp only
    rw [if_neg (by rw [hoff]; nofun)]

/-! ### A good frame (R165) -/

/-- The state in which a good frame is offered to the buffer: the silence timer restarted, and what follows from it. -/
abbrev State.heard (s : State) : State := s.restartSilence.settle []

theorem heard_link (s : State) : SameLink s s.heard := SameLink.trans (t := s.restartSilence) .untouched (settle_link _ _)

/-- A dispatcher that is not READY takes no frame. -/
theorem dispatchLoop_busy {n : Nat} {s : State} (h : s.cl.dispatcher ≠ .ready) : dispatchLoop n s = s := by
  cases n with
  | zero => rfl
  | succ n =>
    unfold dispatchLoop
    split
    · next hd _ => exact absurd hd h
    · rfl

theorem receive_busy {s : State} {f : Frame} (h : s.cl.dispatcher ≠ .ready) :
    s.receive f =
      if restartPending s.heard || decide (4 ≤ s.heard.cl.requests.length) then s.heard.countOverrun
      else s.heard.countAdmitted.setRequests (s.heard.cl.requests ++ [f]) := by
  obtain ⟨-, hd, -⟩ := heard_link s
  unfold State.receive State.dispatch
  rw [dispatchLoop_busy]
  · rfl
  · unfold State.offerRequest
    split
    · exact fun he => h (hd.symm.trans he)
    · exact fun he => h (hd.symm.trans he)

theorem exec_goodFrame {s : State} (h : s.cl.rx = .hunt) (kind tag : Byte) {payload : List Byte} (hp : payload.length ≤ 1024) :
    exec (.goodFrame kind tag payload) s = .next (s.receive ⟨kind, tag, payload⟩) :=
  congrArg Host.Outcome.next (feedFrame_hunt (f := ⟨kind, tag, payload⟩) h hp)

/-- Settles O28: the settling that the restarted silence timer brings about leaves the dispatcher and the buffer as they were. -/
theorem goodFrameIsAdmittedOrDropped : Obligations.GoodFrameIsAdmittedOrDropped := by
  intro kind tag payload s hrx hp a c taken drop
  obtain ⟨-, hd, hq, -⟩ := heard_link s
  have hrequests : a.cl.requests = s.cl.requests := hq
  have hpending (r : Frame) (h : s.cl.dispatcher = .replyWaiting r) : restartPending s.heard = false := by
    unfold restartPending
    rw [hd, h]
  rw [exec_goodFrame hrx kind tag hp]
  refine ⟨fun r h hroom => congrArg _ ?_, fun r h hfull => congrArg _ ?_, fun r h => congrArg _ ?_⟩
  · rw [receive_busy (by rw [h]; nofun), hpending r h, Bool.false_or, if_neg (by rw [hq]; simpa using hroom), hq]
    rfl
  · rw [receive_busy (by rw [h]; nofun), hpending r h, Bool.false_or, if_pos (by rw [hq]; simpa using hfull)]
    rfl
  · have hrestart : restartPending s.heard = true := by
      unfold restartPending
      rw [hd, h]
    rw [receive_busy (by rw [h]; nofun), hrestart, Bool.true_or, if_pos rfl]
    rfl

/-! ### The first three tests (R166) -/

theorem orBadLength_eq_request {α : Type} {o : Option α} {g : α → Request} {r : Request}
    (h : orBadLength (o.map g) = .request r) : ∃ x, r = g x := by
  cases o with
  | none => cases h
  | some x => exact ⟨x, (Parsed.request.inj h).symm⟩

/-- The kind of the request that a frame is read as is the frame's. -/
theorem kind_of_parseRequest {kind : Byte} {payload : List Byte} {r : Request} (h : parseRequest kind payload = .request r) :
    r.kind = kind := by
  have hkind {n : Nat} (hn : kind.toNat = n) : BitVec.ofNat 8 n = kind := by
    apply BitVec.eq_of_toNat_eq
    have := kind.isLt
    simp; omega
  unfold parseRequest at h
  split at h
  all_goals
    first
    | cases h
    | (next hn =>
        rw [← hkind hn]
        split at h
        · first
          | (cases h; rfl)
          | (obtain ⟨x, rfl⟩ := orBadLength_eq_request h; rfl)
          | (split at h <;> cases h; rfl)
        · cases h)

theorem parseRequest_unknown {kind : Byte} (h : kind ∉ requestCodes) (payload : List Byte) :
    parseRequest kind payload = .unknownKind := by
  have hkind {n : Nat} (hn : kind.toNat = n) : kind = BitVec.ofNat 8 n := by
    apply BitVec.eq_of_toNat_eq
    have := kind.isLt
    simp; omega
  unfold parseRequest
  split
  all_goals first | rfl | (next hn => exact absurd (by rw [hkind hn]; decide) h)

/-- A good frame on a ready link is answered in the state it arrives in. -/
theorem exec_goodFrame_ready {s : State} (h : LinkReady s) (kind tag : Byte) {payload : List Byte} (hp : payload.length ≤ 1024) :
    exec (.goodFrame kind tag payload) s = .next (s.arrived.answer ⟨kind, tag, payload⟩) :=
  congrArg Host.Outcome.next (feedFrame_ready (f := ⟨kind, tag, payload⟩) h hp)

/-- A refused frame is answered with its status alone. -/
theorem answer_refused {s : State} {f : Frame} {x : Status} (h : serveFrame s f = refused s x) (hok : x ≠ .ok)
    (hitems : x.carriesItems = false) : s.answer f = s.deliver ⟨f.kind + 0x80, f.tag, [x.code]⟩ := by
  unfold State.answer
  rw [h]
  have haccepted : restartAccepted f x = false := by simp [restartAccepted, hok]
  simp only [refused, haccepted, replyTo, hitems, Bool.false_eq_true, if_false]

theorem serveFrame_badLength {s : State} {f : Frame} (h : parseRequest f.kind f.payload = .badLength) :
    serveFrame s f = refused s .badLength := by
  unfold serveFrame
  rw [h]

theorem servedParked_of_kind {r : Request} (h : r.kind ∉ ([0x01, 0x20, 0x2C, 0x31] : List Byte)) : servedParked r = false := by
  cases r
  case ident o => exact absurd (by simp [Request.kind]) h
  case alertRead o => exact absurd (by simp [Request.kind]) h
  case storeStatus o => exact absurd (by simp [Request.kind]) h
  case unpark => exact absurd (by simp [Request.kind]) h
  all_goals rfl

/-- Entries that are whole, before any others, are walked first. -/
theorem walkEntries_append {es : List RawEntry} (h : es.all RawEntry.wf = true) (n : Nat) (rest : List Byte) :
    walkEntries (es.length + n) (es.flatMap RawEntry.bytes ++ rest) =
      match walkEntries n rest with
      | .entries fs => .entries (es ++ fs)
      | w => w := by
  induction es with
  | nil =>
    rw [List.length_nil, Nat.zero_add, List.flatMap_nil, List.nil_append]
    cases walkEntries n rest <;> rfl
  | cons e es ih =>
    simp only [List.all_cons, Bool.and_eq_true] at h
    obtain ⟨he, hes⟩ := h
    have hentry := takeEntry_bytes he (es.flatMap RawEntry.bytes ++ rest)
    obtain ⟨k, bs, hbs, hk⟩ : ∃ k bs, e.bytes = k :: bs ∧ knownEntryKind k = true := by
      cases e <;> exact ⟨_, _, rfl, rfl⟩
    rw [hbs, List.cons_append] at hentry
    rw [List.flatMap_cons, hbs, List.length_cons, Nat.add_right_comm, List.append_assoc, List.cons_append, walkEntries, if_pos hk, hentry]
    dsimp only
    rw [ih hes]
    cases walkEntries n rest <;> rfl

theorem walkEntries_unknown {code : Byte} (h : code = 0 ∨ 6 < code.toNat) (n : Nat) (rest : List Byte) :
    walkEntries (n + 1) (code :: rest) = .unknownEntry := by
  have hunknown : knownEntryKind code = false := by
    rcases h with rfl | h
    · rfl
    · simp [knownEntryKind]; omega
  rw [walkEntries, if_neg (by rw [hunknown]; nofun)]

/-- A request of one byte, with another payload. -/
theorem parseRequest_one {kind : Byte} {payload : List Byte} (h : payload.length ≠ 1)
    (hk : kind ∈ ([0x01, 0x08, 0x0D, 0x11, 0x16, 0x20, 0x22, 0x28, 0x29, 0x2A, 0x2B, 0x2C] : List Byte)) :
    parseRequest kind payload = .badLength := by
  have hone (g : Byte → Request) : (match payload with | [o] => Parsed.request (g o) | _ => .badLength) = .badLength := by
    split
    · exact absurd rfl h
    · rfl
  simp only [List.mem_cons, List.not_mem_nil, or_false] at hk
  obtain rfl | rfl | rfl | rfl | rfl | rfl | rfl | rfl | rfl | rfl | rfl | rfl := hk
  · exact hone .ident
  · exact hone .state
  · exact hone .apply
  · exact hone .queueCtrl
  · exact hone .wptLock
  · exact hone .alertRead
  · exact hone .resolve
  · exact hone .storeArm
  · exact hone .storeSave
  · exact hone .storeErase
  · exact hone .storeLoad
  · exact hone .storeStatus

/-- Settles O29: each test decides the reading of the frame before any request's rule is reached. -/
theorem requestTestsComeFirst : Obligations.RequestTestsComeFirst := by
  intro kind tag payload s hready hp a
  refine ⟨fun hk => ?_, fun hbad => ?_, fun r hr hpark hk => ?_, fun es count code rest hwf hlen hcode hpayload => ?_,
    fun hlen hk => parseRequest_one hlen hk⟩
  · have hanswer : a.answer ⟨kind, tag, payload⟩ = a.deliver ⟨kind + 0x80, tag, [0x10]⟩ := by
      refine answer_refused (x := .unknownKind) ?_ nofun rfl
      unfold serveFrame
      rw [parseRequest_unknown hk]
    have hexec := exec_goodFrame_ready hready kind tag hp
    rw [show s.arrived = a from rfl, hanswer] at hexec
    exact ⟨hexec, hexec⟩
  · rw [exec_goodFrame_ready hready kind tag hp]
    exact congrArg _ (answer_refused (x := .badLength) (serveFrame_badLength hbad) nofun rfl)
  · rw [exec_goodFrame_ready hready kind tag hp]
    refine congrArg _ (answer_refused (x := .parked) ?_ nofun rfl)
    have hparked := servedParked_of_kind (by rw [kind_of_parseRequest hr]; exact hk)
    unfold serveFrame
    rw [hr]
    exact if_pos ⟨hpark, hparked⟩
  · rw [exec_goodFrame_ready hready 0x10 tag hp]
    refine congrArg _ (answer_refused (x := .range) ?_ nofun rfl)
    have hentries : es.all RawEntry.wf = true := by
      simp only [Request.wf, Bool.and_eq_true] at hwf
      exact hwf.2.2
    obtain ⟨n, hn⟩ : ∃ n, count.toNat = es.length + (n + 1) := ⟨count.toNat - es.length - 1, by omega⟩
    have hwalk : walkEntries count.toNat (es.flatMap RawEntry.bytes ++ code :: rest) = .unknownEntry := by
      rw [hn, walkEntries_append hentries, walkEntries_unknown hcode]
    have hparse : parseRequest 0x10 payload = .badEntry := by
      rw [hpayload]
      show (match walkEntries count.toNat (es.flatMap RawEntry.bytes ++ code :: rest) with
        | .entries es => Parsed.request (.queueAdd es)
        | .unknownEntry => .badEntry
        | .wrongLength => .badLength) = _
      rw [hwalk]
    unfold serveFrame
    rw [hparse]

/-! ### A wrong CRC (R163) -/

theorem answer_rx (s : State) (f : Frame) : (s.answer f).cl.rx = s.cl.rx := by
  have h := (serveFrame_link s f).1
  unfold State.answer
  dsimp only
  split
  · unfold State.deliverRestart; split <;> exact h
  · unfold State.deliver; split <;> exact h

theorem dispatchLoop_rx (n : Nat) (s : State) : (dispatchLoop n s).cl.rx = s.cl.rx := by
  induction n generalizing s with
  | zero => rfl
  | succ n ih =>
    unfold dispatchLoop
    split
    · rw [ih, answer_rx]; rfl
    · rfl

/-- A frame taken leaves the assembler as it is. -/
theorem receive_rx (s : State) (f : Frame) : (s.receive f).cl.rx = s.cl.rx := by
  have hoffer (t : State) : (t.offerRequest f).cl.rx = t.cl.rx := by unfold State.offerRequest; split <;> rfl
  unfold State.receive State.dispatch
  rw [dispatchLoop_rx, hoffer]
  exact (heard_link s).1

/-- What a byte leaves to take: the bytes held and those to come are no more, and where they are as many, one fewer is to come. -/
theorem takeByte_work (s : State) (b : Byte) (bs : List Byte) :
    let p := s.takeByte b
    let m := heldCount s + (b :: bs).length
    let m' := heldCount p.1 + (p.2 ++ bs).length
    m' < m ∨ m' = m ∧ (p.2 ++ bs).length < (b :: bs).length := by
  unfold State.takeByte
  split
  · next hrx =>
    have hheld : heldCount s = 0 := by rw [heldCount, hrx]
    split_ifs
    · exact .inr ⟨by rw [hheld]; simp [heldCount, Nat.add_comm], by simp⟩
    · exact .inl (by simp)
  · next held hrx =>
    have hheld : heldCount s = held.length + 1 := by rw [heldCount, hrx]
    have hframe : heldCount (s.setRx (.inFrame (held ++ [b]))) + bs.length = heldCount s + (bs.length + 1) := by
      rw [hheld]
      simp [heldCount]
      omega
    have hreceived (f : Frame) : heldCount ((s.setRx .hunt).receive f) = 0 := by rw [heldCount, receive_rx]; rfl
    have hagain : 0 + (held ++ [b] ++ bs).length < heldCount s + (bs.length + 1) := by
      rw [hheld]
      simp
    dsimp only
    split_ifs
    · exact .inr ⟨hframe, Nat.lt_succ_self _⟩
    · exact .inl hagain
    · exact .inr ⟨hframe, Nat.lt_succ_self _⟩
    · exact .inl (by rw [hreceived, List.nil_append, List.length_cons]; omega)
    · exact .inl hagain

/-- How many takings the bytes can need. -/
def takingsLeft (s : State) (bs : List Byte) : Nat := (heldCount s + bs.length) * (heldCount s + bs.length) + bs.length

theorem takingsLeft_takeByte (s : State) (b : Byte) (bs : List Byte) :
    takingsLeft (s.takeByte b).1 ((s.takeByte b).2 ++ bs) < takingsLeft s (b :: bs) := by
  have hwork := takeByte_work s b bs
  unfold takingsLeft
  dsimp only at hwork
  rcases hwork with hlt | ⟨he, hlt⟩
  · nlinarith
  · rw [he]; omega

theorem takingsLeft_le (s : State) (bs : List Byte) : takingsLeft s bs ≤ feedFuel (heldCount s + bs.length) := by
  unfold takingsLeft feedFuel
  nlinarith

/-- Takings enough are as good as any more. -/
theorem feedLoop_fuel {n m : Nat} {bs : List Byte} {s : State} (hn : takingsLeft s bs ≤ n) (hm : takingsLeft s bs ≤ m) :
    feedLoop n bs s = feedLoop m bs s := by
  induction n generalizing m bs s with
  | zero =>
    cases bs with
    | nil => rw [feedLoop_nil, feedLoop_nil]
    | cons b bs => simp [takingsLeft] at hn
  | succ n ih =>
    cases bs with
    | nil => rw [feedLoop_nil, feedLoop_nil]
    | cons b bs =>
      have hless := takingsLeft_takeByte s b bs
      obtain ⟨m, rfl⟩ := Nat.exists_eq_add_of_le' (Nat.one_le_of_lt (hless.trans_le hm))
      rw [feedLoop_cons, feedLoop_cons]
      exact ih (by omega) (by omega)

/-- The byte that completes a frame with a wrong CRC: the frame is counted and its bytes are to be taken again. -/
theorem takeByte_crcError {s : State} {kind tag : Byte} {payload : List Byte} {hi lo : Byte} (hp : payload.length ≤ 1024)
    (hcrc : crc16 (coveredBytes kind tag payload) ≠ halfOf hi lo) :
    (s.setRx (.inFrame (coveredBytes kind tag payload ++ [hi]))).takeByte lo =
      ((s.setRx .hunt).countCrcError, coveredBytes kind tag payload ++ [hi, lo]) := by
  have hlen := length_covered kind tag payload
  have hstore : coveredBytes kind tag payload ++ [hi] ++ [lo] = coveredBytes kind tag payload ++ [hi, lo] := by simp
  have hlength : storeLength (coveredBytes kind tag payload ++ [hi, lo]) = payload.length := by
    have := storeLength_covered kind tag payload [hi, lo] hp (payload.length + 6) (by omega)
    rwa [List.take_of_length_le (by simp [hlen])] at this
  have hbad : storeGood (coveredBytes kind tag payload ++ [hi, lo]) = false := by
    have hfield : halfAt (coveredBytes kind tag payload ++ [hi, lo]) (coveredBytes kind tag payload).length = halfOf hi lo := by
      simp [halfAt, byteAt]
    unfold storeGood
    rw [hlength, ← hlen, List.take_left' rfl, hfield]
    simpa using hcrc
  unfold State.takeByte
  simp only [State.setRx_cl, setRx_setRx, hstore, hlength, hbad, Bool.false_eq_true, if_false]
  rw [if_neg (by simp [hlen]), if_neg (by omega), if_neg (by simp [hlen, frameSize])]

/-- Bytes among which no frame starts are dropped in HUNT. -/
theorem feedLoop_noStart {s : State} (h : s.cl.rx = .hunt) {bs : List Byte} (hno : (0xC5 : Byte) ∉ bs) (n : Nat) :
    feedLoop n bs s = s := by
  induction n generalizing bs with
  | zero => rfl
  | succ n ih =>
    cases bs with
    | nil => rfl
    | cons b bs =>
      rw [List.mem_cons, not_or] at hno
      obtain ⟨hb, hbs⟩ := hno
      rw [feedLoop_cons, takeByte_hunt h, if_neg (Ne.symm hb), setRx_self h]
      exact ih hbs

/-- Settles O31: the frame is read to its last byte; its bytes are then taken again, with takings enough left. -/
theorem crcErrorRescans : Obligations.CrcErrorRescans := by
  intro kind tag payload hi lo s hrx hp store hcrc counted
  have hlen := length_covered kind tag payload
  have hstorelen : store.length = payload.length + 6 := by simp [store, hlen]
  have hcounted : (s.setRx .hunt).countCrcError = counted := by rw [setRx_self hrx]; rfl
  have htake : store.take (payload.length + 5) = coveredBytes kind tag payload ++ [hi] := by
    rw [show payload.length + 5 = (coveredBytes kind tag payload).length + 1 by omega]
    simp [store, List.take_append]
  have hdrop : store.drop (payload.length + 5) = [lo] := by
    rw [show payload.length + 5 = (coveredBytes kind tag payload).length + 1 by omega]
    simp [store, List.drop_append]
  have hexec : exec (.crcError kind tag payload hi lo) s = .next (counted.feedLink store) := by
    show Host.Outcome.next (s.feedLink (0xC5 :: store)) = _
    refine congrArg _ ?_
    obtain ⟨g, hg⟩ : ∃ g, feedFuel (store.length + 1) - 1 = g + 1 + (payload.length + 5) ∧ feedFuel store.length ≤ g := by
      refine ⟨feedFuel (store.length + 1) - 1 - 1 - (payload.length + 5), ?_, ?_⟩
      · unfold feedFuel
        rw [hstorelen]
        have : payload.length + 7 ≤ (payload.length + 6 + 1 + 1) * (payload.length + 6 + 1 + 2) := by nlinarith
        omega
      · unfold feedFuel
        rw [hstorelen]
        have : (payload.length + 6 + 1) * (payload.length + 6 + 2) + (payload.length + 7) ≤
          (payload.length + 6 + 1 + 1) * (payload.length + 6 + 1 + 2) := by nlinarith
        omega
    have hprefix := feed_prefix s kind tag payload [hi, lo] hp (payload.length + 5) 0 (g + 1) (by omega)
      (by rw [List.length_append, hlen]; simp)
    simp only [List.drop_zero, List.take_zero, Nat.zero_add] at hprefix
    rw [feedLink_start hrx, hg.1]
    refine hprefix.trans ?_
    rw [show coveredBytes kind tag payload ++ [hi, lo] = store from rfl, htake, hdrop, feedLoop_cons, takeByte_crcError hp hcrc,
      hcounted, List.append_nil]
    have hhunt : heldCount counted = 0 := by rw [heldCount, show counted.cl.rx = .hunt from hrx]
    have hle := takingsLeft_le counted store
    exact feedLoop_fuel (hle.trans (by rw [hhunt, Nat.zero_add]; exact hg.2)) hle
  exact ⟨hexec, fun hno => by rw [hexec]; exact congrArg _ (feedLoop_noStart (s := counted) hrx hno _)⟩

end Sys2Proof.Machine
end

section
/-! PROOFS. The operations on one axis in one form: the record they write, the reports to the head, a sweep's end. -/

namespace Sys2Proof.Machine

/-! ### Reports to the head (R79) -/

/-- The head phase after a report of axis `k`. -/
def reportedPhase (m : Sequencer) (k : Axis) (serial : Half) (aborted : Bool) : HeadPhase :=
  match m.queue, m.phase with
  | e :: _, .waitingSegments out ab =>
    if e.serial = serial ∧ hasAxis out k = true then .waitingSegments (out &&& ~~~(axisSetOf (fun q => q = k))) (ab || aborted)
    else m.phase
  | _, _ => m.phase

theorem setPhase_self (s : State) : s.setPhase s.ms.phase = s := rfl

theorem reportSegment_eq (s : State) (k : Axis) (serial : Half) (aborted : Bool) :
    s.reportSegment k serial aborted = s.setPhase (reportedPhase s.ms k serial aborted) := by
  cases hq : s.ms.queue with
  | nil =>
    unfold State.reportSegment reportedPhase
    rw [hq]
    rfl
  | cons e rest =>
    cases hp : s.ms.phase with
    | waitingSegments out ab =>
      unfold State.reportSegment reportedPhase
      rw [hq, hp]
      dsimp only
      split
      · rfl
      · rw [← hp, setPhase_self]
    | _ =>
      unfold State.reportSegment reportedPhase
      rw [hq, hp]
      dsimp only
      rw [← hp, setPhase_self]

/-- The head phase after the reports, as aborted, of the serials in turn. -/
def abortedPhase (m : Sequencer) (k : Axis) : List Half → HeadPhase
  | [] => m.phase
  | n :: ns => abortedPhase { m with phase := reportedPhase m k n true } k ns

theorem reportAll_eq (ns : List Half) (s : State) (k : Axis) :
    ns.foldl (fun u n => u.reportSegment k n true) s = s.setPhase (abortedPhase s.ms k ns) := by
  induction ns generalizing s with
  | nil => rfl
  | cons n ns ih =>
    rw [List.foldl_cons, ih, reportSegment_eq]
    rfl

/-! ### An axis written, its motion reported as aborted, a sweep on it ended -/

theorem Five.set_set {α : Type} (x : Five α) (k : Axis) (a b : α) : (x.set k a).set k b = x.set k b := by cases k <;> rfl

theorem Five.set_get {α : Type} (x : Five α) (k : Axis) : x.set k (x.get k) = x := by cases k <;> rfl

theorem setAxis_setAxis (s : State) (k : Axis) (a b : AxisRec) : (s.setAxis k a).setAxis k b = s.setAxis k b := by
  unfold State.setAxis
  rw [Five.set_set]

theorem setAxis_self (s : State) (k : Axis) : s.setAxis k (s.axis k) = s := by
  unfold State.setAxis State.axis
  rw [Five.set_get]

/-- The axis record written, and the serials given reported as aborted. -/
def State.leaveMotion (s : State) (k : Axis) (y : AxisRec) (ns : List Half) : State :=
  (s.setAxis k y).setPhase (abortedPhase s.ms k ns)

/-- A sweep on the axis ends ABORTED: its registers and its notice (R113). -/
def State.sweepAborted (s : State) (k : Axis) : State :=
  if sweeping s k then
    { s with
      sw := { s.sw with running := false, last := ⟨.aborted, k, s.sw.savedD, none, none, s.le.frameNo⟩ }
      cl := s.cl.offer ⟨0x49, 0, wordBytes s.le.frameNo ++ [1, byteOf (axisIndex k), 4, byteOf s.sw.savedD]⟩ }
  else s

/-- The saved D put back into the active record when a sweep on the axis ends (R113). -/
def withSavedD (s : State) (k : Axis) (x : AxisRec) : AxisRec :=
  if sweeping s k then { x with active := { x.active with d := s.sw.savedD } } else x

theorem leaveHold_eq (s : State) (k : Axis) : s.leaveHold k = (s.setAxis k (withSavedD s k (s.axis k))).sweepAborted k := by
  cases h : sweeping s k with
  | true =>
    obtain rfl := (running_of_sweeping h).2
    have hleave : s.leaveHold s.sw.axis = s.abortSweep := if_pos h
    have hended (y : AxisRec) : (s.setAxis s.sw.axis y).sweepAborted s.sw.axis = _ := if_pos (show sweeping (s.setAxis s.sw.axis y) _ = true from h)
    rw [hleave, hended, withSavedD, if_pos h, State.abortSweep, endSweep_eq]
    rfl
  | false =>
    have hleave : s.leaveHold k = s := if_neg (by rw [h]; nofun)
    have hended (t : State) (ht : sweeping t k = false) : t.sweepAborted k = t := if_neg (by rw [ht]; nofun)
    rw [hleave, withSavedD, if_neg (by rw [h]; nofun), setAxis_self, hended s h]

theorem abortMotion_eq (s : State) (k : Axis) :
    s.abortMotion k = s.leaveMotion k { s.axis k with segment := none, launch := none } (heldSerials (s.axis k)) :=
  reportAll_eq _ _ _

section
variable (s : State) (k : Axis) (y : AxisRec) (ns : List Half)

@[simp] theorem leaveMotion_axis_same : (s.leaveMotion k y ns).axis k = y := State.axis_setAxis_same _ _ _

theorem leaveMotion_axis_other {j : Axis} (h : j ≠ k) : (s.leaveMotion k y ns).axis j = s.axis j := Five.get_set_other _ _ h

theorem leaveMotion_ms : (s.leaveMotion k y ns).ms = { s.ms with phase := abortedPhase s.ms k ns } := rfl

theorem leaveMotion_setAxis (z : AxisRec) : (s.leaveMotion k y ns).setAxis k z = s.leaveMotion k z ns := by
  unfold State.leaveMotion
  rw [← setAxis_setAxis s k y z]
  rfl

theorem sweeping_leaveMotion : sweeping (s.leaveMotion k y ns) k = sweeping s k := rfl

theorem sweepAborted_setAxis (z : AxisRec) : (s.sweepAborted k).setAxis k z = (s.setAxis k z).sweepAborted k := by
  unfold State.sweepAborted
  rw [show sweeping (s.setAxis k z) k = sweeping s k from rfl]
  split <;> rfl

theorem sweepAborted_axis (j : Axis) : (s.sweepAborted k).axis j = s.axis j := by
  unfold State.sweepAborted
  split <;> rfl

theorem sweepAborted_ms : (s.sweepAborted k).ms = s.ms := by
  unfold State.sweepAborted
  split <;> rfl

end

/-- HALT acting on an axis (R131). -/
theorem killHalt_eq (s : State) (k : Axis) :
    s.killHalt k =
      (s.leaveMotion k
        { withSavedD s k (s.axis k) with mode := .stopped, segment := none, launch := none, killPhase := .halted }
        (heldSerials (s.axis k))).sweepAborted k := by
  unfold State.killHalt
  dsimp only
  rw [leaveHold_eq, abortMotion_eq, sweepAborted_setAxis, setAxis_setAxis, leaveMotion_setAxis, sweepAborted_axis]
  simp only [State.axis_setAxis_same, leaveMotion_axis_same]
  unfold withSavedD
  rw [sweeping_leaveMotion]
  split <;> rfl

/-- PAUSE acting on an axis (R131). -/
theorem killPause_eq (s : State) (k : Axis) :
    s.killPause k =
      s.leaveMotion k
        { s.axis k with
          mode := if (s.axis k).mode = .move then .hold else (s.axis k).mode, segment := none, launch := none, killPhase := .paused }
        (heldSerials (s.axis k)) := by
  unfold State.killPause
  dsimp only
  rw [abortMotion_eq, leaveMotion_axis_same, leaveMotion_setAxis]
  congr 1
  dsimp only
  split <;> rfl

/-- A level-2 taking on an axis in an active mode (R28). -/
theorem enterSafe_active {s : State} {k : Axis} (h : isActive (s.axis k).mode = true) :
    s.enterSafe k =
      (s.leaveMotion k
        { withSavedD s k (s.axis k) with mode := .safe, jlock := (s.axis k).j, segment := none, launch := none }
        (heldSerials (s.axis k))).sweepAborted k := by
  unfold State.enterSafe
  rw [if_pos h]
  dsimp only
  rw [leaveHold_eq, abortMotion_eq, sweepAborted_setAxis, setAxis_setAxis, leaveMotion_setAxis, sweepAborted_axis]
  simp only [State.axis_setAxis_same, leaveMotion_axis_same]
  unfold withSavedD
  rw [sweeping_leaveMotion]
  split <;> rfl

theorem enterSafe_inactive {s : State} {k : Axis} (h : isActive (s.axis k).mode = false) : s.enterSafe k = s := by
  unfold State.enterSafe
  rw [if_neg (by rw [h]; nofun)]

end Sys2Proof.Machine
end

section
/-! PROOFS. A settling while no progress is allowed: the queue stands, the cues only grow, and an axis at most enters SAFE. Kill line
edges. -/

namespace Sys2Proof.Machine

/-! ### What a settling does to an axis while the head stands -/

/-- The axis has been damped or has entered SAFE, or is as it was. -/
structure CalmAxis (a b : AxisRec) : Prop where
  mode : b.mode = a.mode ∨ isActive a.mode = true ∧ b.mode = .safe
  killPhase : b.killPhase = a.killPhase
  active : b.active = { a.active with d := b.active.d }
  segment : a.segment = none → b.segment = none
  launch : a.launch = none → b.launch = none

theorem CalmAxis.refl (a : AxisRec) : CalmAxis a a := ⟨.inl rfl, rfl, rfl, id, id⟩

theorem CalmAxis.trans {a b c : AxisRec} (h : CalmAxis a b) (g : CalmAxis b c) : CalmAxis a c where
  mode := by
    rcases h.mode with he | ⟨ha, hb⟩
    · rw [← he]; exact g.mode
    · rcases g.mode with he | ⟨hact, -⟩
      · exact .inr ⟨ha, he.trans hb⟩
      · rw [hb] at hact; cases hact
  killPhase := g.killPhase.trans h.killPhase
  active := by rw [g.active, h.active]
  segment hs := g.segment (h.segment hs)
  launch hs := g.launch (h.launch hs)

/-- What a settling does while no progress is allowed. -/
structure Stilled (s t : State) : Prop where
  running : t.ms.running = s.ms.running
  holdKill : t.ms.holdKill = s.ms.holdKill
  still : progress t = false
  queue : t.ms.queue = s.ms.queue
  doneList : t.ms.doneList = s.ms.doneList
  cueSources : t.ms.cueSources = s.ms.cueSources
  cues : s.ms.cues &&& ~~~t.ms.cues = 0
  axes : ∀ k, CalmAxis (s.axis k) (t.axis k)

theorem and_not_trans {a b c : Byte} (h : a &&& ~~~b = 0) (g : b &&& ~~~c = 0) : a &&& ~~~c = 0 := by
  have hbit (x y : Byte) (i : Nat) (e : x &&& ~~~y = 0) (hi : i < 8) (hx : x.getLsbD i = true) : y.getLsbD i = true := by
    have := congrArg (fun z : Byte => z.getLsbD i) e
    simpa [hi, hx] using this
  apply BitVec.eq_of_getLsbD_eq
  intro i hi
  cases ha : a.getLsbD i with
  | false => simp [ha]
  | true => simp [hi, hbit b c i g hi (hbit a b i h hi ha)]

theorem and_not_or (a b : Byte) : a &&& ~~~(a ||| b) = 0 := by
  apply BitVec.eq_of_getLsbD_eq
  intro i hi
  cases ha : a.getLsbD i <;> simp [ha]

theorem and_not_self (a : Byte) : a &&& ~~~a = 0 := BitVec.and_not_self a

theorem Stilled.refl {s : State} (h : progress s = false) : Stilled s s :=
  ⟨rfl, rfl, h, rfl, rfl, rfl, and_not_self _, fun _ => .refl _⟩

theorem Stilled.trans {s t u : State} (h : Stilled s t) (g : Stilled t u) : Stilled s u where
  running := g.running.trans h.running
  holdKill := g.holdKill.trans h.holdKill
  still := g.still
  queue := g.queue.trans h.queue
  doneList := g.doneList.trans h.doneList
  cueSources := g.cueSources.trans h.cueSources
  cues := and_not_trans h.cues g.cues
  axes k := (h.axes k).trans (g.axes k)

/-- A change that the head and the axes do not see. -/
theorem Stilled.of_eq {s t : State} (h : progress s = false) (ms : t.ms = s.ms := by rfl) (axes : t.axes = s.axes := by rfl) :
    Stilled s t := by
  refine ⟨by rw [ms], by rw [ms], by unfold progress at h ⊢; rw [ms]; exact h, by rw [ms], by rw [ms], by rw [ms],
    by rw [ms]; exact and_not_self _, fun k => ?_⟩
  unfold State.axis
  rw [axes]
  exact .refl _

theorem withSavedD_calm (s : State) (k : Axis) (x : AxisRec) : (withSavedD s k x).active = { x.active with d := (withSavedD s k x).active.d } := by
  unfold withSavedD
  split <;> rfl

theorem withSavedD_killPhase (s : State) (k : Axis) (x : AxisRec) : (withSavedD s k x).killPhase = x.killPhase := by
  unfold withSavedD
  split <;> rfl

theorem stilled_enterSafe {s : State} (h : progress s = false) (k : Axis) : Stilled s (s.enterSafe k) := by
  cases hact : isActive (s.axis k).mode with
  | false => rw [enterSafe_inactive hact]; exact .refl h
  | true =>
    rw [enterSafe_active hact]
    refine ⟨?_, ?_, ?_, ?_, ?_, ?_, ?_, fun j => ?_⟩
    case refine_3 => unfold progress at h ⊢; rw [sweepAborted_ms]; exact h
    case refine_8 =>
      rw [sweepAborted_axis]
      by_cases hj : j = k
      · subst hj
        rw [leaveMotion_axis_same]
        exact ⟨.inr ⟨hact, rfl⟩, withSavedD_killPhase _ _ _, withSavedD_calm _ _ _, fun _ => rfl, fun _ => rfl⟩
      · rw [leaveMotion_axis_other _ _ _ _ hj]
        exact .refl _
    all_goals rw [sweepAborted_ms]; first | rfl | exact and_not_self _

theorem stilled_feedCue {s : State} (h : progress s = false) (sel : Selector) : Stilled s (s.feedCue sel) := by
  rw [feedCue_of_no_progress h]
  exact ⟨rfl, rfl, h, rfl, rfl, rfl, and_not_or _ _, fun _ => .refl _⟩

theorem Stilled.foldl {α : Type} {f : State → α → State} (hf : ∀ s a, progress s = false → Stilled s (f s a)) (l : List α)
    {s : State} (h : progress s = false) : Stilled s (l.foldl f s) :=
  keeps_foldl (P := Stilled s) (fun t a ht => ht.trans (hf t a ht.still)) l s (.refl h)

theorem stilled_inService {s : State} (h : progress s = false) (level : Level) (src : Source) :
    Stilled s (s.inService level src) := by
  refine ⟨?_, ?_, ?_, ?_, ?_, ?_, ?_, fun k => ?_⟩
  case refine_3 =>
    unfold progress at h ⊢
    rw [inService_ms]
    cases level <;> simp_all
  case refine_8 =>
    unfold State.axis
    rw [inService_axes]
    cases level with
    | two => exact .refl _
    | one =>
      dsimp only
      rw [Five.get_mapAxis]
      split
      · exact ⟨.inl rfl, rfl, rfl, id, id⟩
      · exact .refl _
  all_goals rw [inService_ms]
  exact and_not_self _

theorem stilled_take {s : State} (h : progress s = false) (level : Level) (src : Source) : Stilled s (s.take level src) := by
  have hserved := stilled_inService h level src
  have hacted : Stilled s (s.acted level src) := by
    cases level with
    | one => exact hserved.trans (stilled_feedCue hserved.still _)
    | two =>
      have hcued := hserved.trans (stilled_feedCue hserved.still (.alert .two))
      exact hcued.trans (.foldl (fun t k ht => stilled_enterSafe ht k) _ hcued.still)
  exact hacted.trans (.of_eq hacted.still (take_ms s level src) (take_axes s level src))

theorem stilled_settle {s : State} (h : progress s = false) (due : List Due) : Stilled s (s.settle due) := by
  refine settle_keeps (P := Stilled s) (fun t ht => ?_) (fun t src ht => ?_) (fun t n ht => ?_) (fun t d ht => ?_)
    (fun t l src ht => ?_) (fun t u ht hu => ?_) due s (.refl h)
  · exact ht.trans (.of_eq ht.still)
  · exact ht.trans (.of_eq ht.still)
  · exact ht.trans (.of_eq ht.still (by rw [choose_eq]) (by rw [choose_eq]))
  · exact ht.trans (by cases d <;> exact .of_eq ht.still)
  · exact ht.trans (stilled_take ht.still l src)
  · rw [headStep_none_of_no_progress ht.still] at hu
    cases hu

/-! ### A pass over the axes -/

/-- A pass over axes, each step changing what belongs to its own axis alone. -/
theorem foldl_ofAxes {α : Type} {f : State → Axis → State} (view : State → Axis → α) (R : Axis → α → α → Prop)
    (other : ∀ s k j, j ≠ k → view (f s k) j = view s j) (own : ∀ s k, R k (view s k) (view (f s k) k)) (l : List Axis)
    (hl : l.Nodup) (s : State) (k : Axis) :
    (k ∈ l → R k (view s k) (view (l.foldl f s) k)) ∧ (k ∉ l → view (l.foldl f s) k = view s k) := by
  induction l generalizing s with
  | nil => exact ⟨nofun, fun _ => rfl⟩
  | cons j l ih =>
    obtain ⟨hj, hl⟩ := List.nodup_cons.1 hl
    obtain ⟨hin, hout⟩ := ih hl (f s j)
    rw [List.foldl_cons]
    constructor
    · intro hk
      rcases List.mem_cons.1 hk with rfl | hk
      · rw [hout hj]
        exact own s k
      · have hne : k ≠ j := fun e => hj (e ▸ hk)
        rw [← other s j k hne]
        exact hin hk
    · intro hk
      obtain ⟨hne, hk⟩ := not_or.1 (fun h => hk (List.mem_cons.2 h))
      rw [hout hk, other s j k hne]

theorem mem_allAxes (k : Axis) : k ∈ allAxes := by cases k <;> decide

theorem nodup_allAxes : allAxes.Nodup := by decide

/-! ### The axes' parts of an assertion (R129, R131) -/

/-- What an assertion, with what it brings about, makes of an axis. -/
structure KilledAxis (a b : AxisRec) : Prop where
  immediate : a.active.killTiming = .immediate → b.segment = none ∧ b.launch = none ∧
    (a.active.killEffect = .halt → b.mode = .stopped ∧ b.killPhase = .halted) ∧
    (a.active.killEffect = .pause →
      b.killPhase = .paused ∧ (b.mode = (if a.mode = .move then .hold else a.mode) ∨ b.mode = .safe))
  next : a.active.killTiming = .next → (b.mode = a.mode ∨ b.mode = .safe) ∧
    b.killPhase = (if a.killPhase = .clear ∨ a.killPhase = .halted then .awaiting else a.killPhase)

theorem CalmAxis.stopped {a b : AxisRec} (h : CalmAxis a b) (hs : a.mode = .stopped) : b.mode = .stopped := by
  rcases h.mode with he | ⟨ha, -⟩
  · rw [he, hs]
  · rw [hs] at ha; cases ha

/-- A mode or SAFE stays that mode or SAFE. -/
theorem CalmAxis.orSafe {a b : AxisRec} (h : CalmAxis a b) {m : Mode} (ha : a.mode = m ∨ a.mode = .safe) :
    b.mode = m ∨ b.mode = .safe := by
  rcases h.mode with he | ⟨-, hb⟩
  · rw [he]; exact ha
  · exact .inr hb

theorem KilledAxis.after {a b c : AxisRec} (h : KilledAxis a b) (g : CalmAxis b c) : KilledAxis a c where
  immediate ht := by
    obtain ⟨hseg, hlaunch, hhalt, hpause⟩ := h.immediate ht
    refine ⟨g.segment hseg, g.launch hlaunch, fun he => ?_, fun he => ?_⟩
    · exact ⟨g.stopped (hhalt he).1, g.killPhase.trans (hhalt he).2⟩
    · exact ⟨g.killPhase.trans (hpause he).1, g.orSafe (hpause he).2⟩
  next ht := ⟨g.orSafe (h.next ht).1, g.killPhase.trans (h.next ht).2⟩

theorem KilledAxis.before {a b c : AxisRec} (h : CalmAxis a b) (g : KilledAxis b c) : KilledAxis a c where
  immediate ht := by
    obtain ⟨hseg, hlaunch, hhalt, hpause⟩ := g.immediate (by rw [h.active]; exact ht)
    refine ⟨hseg, hlaunch, fun he => hhalt (by rw [h.active]; exact he), fun he => ?_⟩
    obtain ⟨hphase, hmode⟩ := hpause (by rw [h.active]; exact he)
    refine ⟨hphase, ?_⟩
    rcases h.mode with hm | ⟨-, hm⟩
    · rwa [hm] at hmode
    · rw [hm] at hmode
      exact .inr (hmode.elim id id)
  next ht := by
    obtain ⟨hmode, hphase⟩ := g.next (by rw [h.active]; exact ht)
    rw [h.killPhase] at hphase
    refine ⟨?_, hphase⟩
    rcases h.mode with hm | ⟨-, hm⟩
    · rwa [hm] at hmode
    · rw [hm] at hmode
      exact .inr (hmode.elim id id)

/-- What an assertion hands a link. -/
def killedLink (a : AxisRec) (l : DriveLink) : DriveLink :=
  if a.active.killTiming = .immediate then l.hand (brakeWord false) else l

/-- What one axis's part of an assertion does. -/
structure AxisKill (s : State) (k : Axis) (t : State) : Prop where
  si : t.si = s.si
  le : t.le = s.le
  ps : t.ps = s.ps
  killAsserted : t.killAsserted = s.killAsserted
  ms : t.ms = { s.ms with phase := t.ms.phase }
  other : ∀ j, j ≠ k → t.axis j = s.axis j
  axis : KilledAxis (s.axis k) (t.axis k)
  dl : t.dl = s.dl.set k (killedLink (s.axis k) (s.dl.get k))

theorem killAct_axis (s : State) (k : Axis) (ht : (s.axis k).active.killTiming = .immediate) :
    KilledAxis (s.axis k) ((s.killAct k).axis k) := by
  have hnext (h : (s.axis k).active.killTiming = .next) : False := by rw [ht] at h; cases h
  unfold State.killAct
  cases he : (s.axis k).active.killEffect with
  | halt =>
    have hpause (h : (s.axis k).active.killEffect = .pause) : False := by rw [he] at h; cases h
    dsimp only
    rw [killHalt_eq, sweepAborted_axis, leaveMotion_axis_same]
    exact ⟨fun _ => ⟨rfl, rfl, fun _ => ⟨rfl, rfl⟩, fun h => (hpause h).elim⟩, fun h => (hnext h).elim⟩
  | pause =>
    have hhalt (h : (s.axis k).active.killEffect = .halt) : False := by rw [he] at h; cases h
    dsimp only
    rw [killPause_eq, leaveMotion_axis_same]
    exact ⟨fun _ => ⟨rfl, rfl, fun h => (hhalt h).elim, fun _ => ⟨rfl, .inl rfl⟩⟩, fun h => (hnext h).elim⟩

theorem killAct_other (s : State) {k j : Axis} (h : j ≠ k) : (s.killAct k).axis j = s.axis j := by
  unfold State.killAct
  split
  · rw [killHalt_eq, sweepAborted_axis, leaveMotion_axis_other _ _ _ _ h]
  · rw [killPause_eq, leaveMotion_axis_other _ _ _ _ h]

theorem killAct_ms (s : State) (k : Axis) : (s.killAct k).ms = { s.ms with phase := (s.killAct k).ms.phase } := by
  unfold State.killAct
  split
  · rw [killHalt_eq, sweepAborted_ms]; rfl
  · rw [killPause_eq]; rfl

theorem axisKill_killAxis (s : State) (k : Axis) : AxisKill s k (s.killAxis k) := by
  unfold State.killAxis
  dsimp only
  cases ht : (s.axis k).active.killTiming with
  | immediate =>
    obtain ⟨hsi, hle, hdl, hkill, hps, -⟩ := killAct_same s k
    have hlink : (s.killAct k).dl.set k (((s.killAct k).dl.get k).hand (brakeWord false)) =
        s.dl.set k (killedLink (s.axis k) (s.dl.get k)) := by
      rw [hdl, killedLink, if_pos ht]
    exact ⟨hsi, hle, hps, hkill, killAct_ms s k, fun j hj => killAct_other s hj, killAct_axis s k ht, hlink⟩
  | next =>
    have hlink : s.dl = s.dl.set k (killedLink (s.axis k) (s.dl.get k)) := by
      rw [killedLink, if_neg (by rw [ht]; nofun), Five.set_get]
    have himm {P : Prop} (h : (s.axis k).active.killTiming = .immediate) : P := by rw [ht] at h; cases h
    dsimp only
    split
    case isTrue hphase =>
      refine ⟨rfl, rfl, rfl, rfl, rfl, fun j hj => Five.get_set_other _ _ hj, ?_, hlink⟩
      rw [State.axis_setAxis_same]
      exact ⟨fun h => himm h, fun _ => ⟨.inl rfl, (if_pos hphase).symm⟩⟩
    case isFalse hphase =>
      exact ⟨rfl, rfl, rfl, rfl, rfl, fun _ _ => rfl, ⟨fun h => himm h, fun _ => ⟨.inl rfl, (if_neg hphase).symm⟩⟩, hlink⟩

/-- The axes' parts of an assertion together. -/
structure AxesKill (s t : State) : Prop where
  si : t.si = s.si
  le : t.le = s.le
  ps : t.ps = s.ps
  killAsserted : t.killAsserted = s.killAsserted
  ms : t.ms = { s.ms with phase := t.ms.phase }
  axis : ∀ k, KilledAxis (s.axis k) (t.axis k)
  dl : ∀ k, t.dl.get k = killedLink (s.axis k) (s.dl.get k)

theorem axesKill_killAxes (s : State) : AxesKill s s.killAxes := by
  have hkept := keeps_foldl (P := fun t => t.si = s.si ∧ t.le = s.le ∧ t.ps = s.ps ∧ t.killAsserted = s.killAsserted ∧
      t.ms = { s.ms with phase := t.ms.phase }) (f := State.killAxis)
    (fun t k ⟨hsi, hle, hps, hkill, hms⟩ => by
      obtain ⟨gsi, gle, gps, gkill, gms, -, -, -⟩ := axisKill_killAxis t k
      exact ⟨gsi.trans hsi, gle.trans hle, gps.trans hps, gkill.trans hkill, by rw [gms, hms]⟩)
    allAxes s ⟨rfl, rfl, rfl, rfl, rfl⟩
  have hpass (k : Axis) := (foldl_ofAxes (f := State.killAxis) (fun t j => (t.axis j, t.dl.get j))
    (fun _ x y => KilledAxis x.1 y.1 ∧ y.2 = killedLink x.1 x.2)
    (fun t k j hj => Prod.ext ((axisKill_killAxis t k).other j hj)
      (by dsimp only; rw [(axisKill_killAxis t k).dl, Five.get_set_other _ _ hj]))
    (fun t k => ⟨(axisKill_killAxis t k).axis, by dsimp only; rw [(axisKill_killAxis t k).dl, Five.get_set_same]⟩)
    allAxes nodup_allAxes s k).1 (mem_allAxes k)
  obtain ⟨hsi, hle, hps, hkill, hms⟩ := hkept
  exact ⟨hsi, hle, hps, hkill, hms, fun k => (hpass k).1, fun k => (hpass k).2⟩

/-! ### An assertion (R129) -/

/-- What the axes' parts come to with a settling before and after them, while no progress is allowed. -/
structure Killed (s t : State) : Prop where
  holdKill : t.ms.holdKill = s.ms.holdKill
  cues : s.ms.cues &&& ~~~t.ms.cues = 0
  si : t.si = s.si
  le : t.le = s.le
  ps : t.ps = s.ps
  killAsserted : t.killAsserted = s.killAsserted
  queue : t.ms.queue = s.ms.queue
  doneList : t.ms.doneList = s.ms.doneList
  axis : ∀ k, KilledAxis (s.axis k) (t.axis k)
  dl : ∀ k, t.dl.get k = killedLink (s.axis k) (s.dl.get k)

theorem AxesKill.killed {s t : State} (h : AxesKill s t) : Killed s t := by
  refine ⟨?_, ?_, h.si, h.le, h.ps, h.killAsserted, ?_, ?_, h.axis, h.dl⟩
  case refine_2 => rw [h.ms]; exact and_not_self _
  all_goals rw [h.ms]

theorem Killed.settle {s t : State} (h : Killed s t) (hp : progress t = false) (due : List Due) : Killed s (t.settle due) := by
  have hcalm := stilled_settle hp due
  obtain ⟨gsi, gle, gdl, gkill, gps, -⟩ := settle_same t due
  exact ⟨hcalm.holdKill.trans h.holdKill, and_not_trans h.cues hcalm.cues, gsi.trans h.si, gle.trans h.le, gps.trans h.ps,
    gkill.trans h.killAsserted, hcalm.queue.trans h.queue, hcalm.doneList.trans h.doneList,
    fun k => (h.axis k).after (hcalm.axes k), fun k => by rw [gdl, h.dl]⟩

theorem Killed.ofSettled {s t : State} (hp : progress s = false) (due : List Due) (h : Killed (s.settle due) t) : Killed s t := by
  have hcalm := stilled_settle hp due
  obtain ⟨gsi, gle, gdl, gkill, gps, -⟩ := settle_same s due
  refine ⟨h.holdKill.trans hcalm.holdKill, and_not_trans hcalm.cues h.cues, h.si.trans gsi, h.le.trans gle, h.ps.trans gps,
    h.killAsserted.trans gkill, h.queue.trans hcalm.queue, h.doneList.trans hcalm.doneList,
    fun k => (h.axis k).before (hcalm.axes k), fun k => ?_⟩
  rw [h.dl, gdl, killedLink, killedLink, (hcalm.axes k).active]

theorem progress_killAxes {s : State} (h : progress s = false) : progress s.killAxes = false := by
  unfold progress at h ⊢
  rw [(axesKill_killAxes s).ms]
  exact h

/-- The KILL condition and the axes' parts, in either order. -/
theorem killed_assertion {s : State} (hp : progress s = false) :
    Killed s ((s.settle []).killAxes.settle []) ∧ Killed s (s.killAxes.settle []) := by
  have hsettled := (stilled_settle hp []).still
  exact ⟨((axesKill_killAxes _).killed.settle (progress_killAxes hsettled) []).ofSettled hp [],
    (axesKill_killAxes s).killed.settle (progress_killAxes hp) []⟩

/-- The assertion from the hold on. -/
theorem killed_assertKill {s : State} (h : s.killAsserted = false) :
    Killed { s with killAsserted := true, ms := { s.ms with holdKill := true, cues := s.ms.cues ||| cuesOf s.ms.cueSources .kill } }
      s.assertKill := by
  have hheld : s.killHold =
      { s with ms := { s.ms with holdKill := true, cues := s.ms.cues ||| cuesOf s.ms.cueSources .kill } } :=
    feedCue_of_no_progress (s := s.setHoldKill true) (by unfold progress State.setHoldKill; simp) .kill
  set u : State := { (s.killHold.choose 2).2 with killAsserted := true } with hu
  have hpu : progress u = false := by
    rw [hu, choose_eq, hheld]
    unfold progress
    simp
  have hassert : s.assertKill = if (s.killHold.choose 2).1 = 0 then (u.settle []).killAxes.settle [] else u.killAxes.settle [] := by
    unfold State.assertKill
    rw [if_neg (by rw [h]; nofun)]
  have hkilled : Killed u s.assertKill := by
    rw [hassert]
    split
    · exact (killed_assertion hpu).1
    · exact (killed_assertion hpu).2
  have hsame : u = { s with
      killAsserted := true, ms := { s.ms with holdKill := true, cues := s.ms.cues ||| cuesOf s.ms.cueSources .kill },
      schedule := u.schedule, freeCount := u.freeCount } := by
    rw [hu, choose_eq, hheld]
  rw [hsame] at hkilled
  exact ⟨hkilled.holdKill, hkilled.cues, hkilled.si, hkilled.le, hkilled.ps, hkilled.killAsserted, hkilled.queue, hkilled.doneList,
    hkilled.axis, hkilled.dl⟩

/-- Settles O26: with the hold standing a settling moves no entry, and the axes' parts are made one after another. -/
theorem killLineEdges : Obligations.KillLineEdges := by
  intro s
  refine ⟨fun h => ⟨s.assertKill, rfl, ?_⟩, fun h => ⟨?_, ?_⟩, fun h => ?_⟩
  · obtain ⟨hhold, hcues, hsi, hle, hps, hkill, hqueue, hdone, haxis, hdl⟩ := killed_assertKill h
    refine ⟨hkill, hhold, hcues, hsi, hle, hps, congrArg List.length hqueue, hdone, fun k => ⟨fun ht => ?_, fun ht => ?_⟩⟩
    · obtain ⟨hseg, hlaunch, hhalt, hpause⟩ := (haxis k).immediate ht
      exact ⟨hseg, hlaunch, (hdl k).trans (if_pos ht), hhalt, hpause⟩
    · have himm (e : (s.axis k).active.killTiming = .immediate) : False := by rw [ht] at e; cases e
      exact ⟨(hdl k).trans (if_neg himm), (haxis k).next ht⟩
  · exact congrArg Host.Outcome.next (if_pos h)
  · exact congrArg Host.Outcome.next (if_pos h)
  · exact congrArg Host.Outcome.next (if_neg (by rw [h]; nofun))

end Sys2Proof.Machine
end

section
/-! PROOFS. A request served at once: the state, status and items of its own rule, delivered. The requests with one rule. -/

namespace Sys2Proof.Machine

/-! ### A request served at once (R166) -/

/-- A request with a wire form, sent on a ready link, has the reply that serving gives it. -/
theorem exec_linked {i : Instr} {s t : State} {r : Request} {x : Status} {items : List Byte} {tag : Byte} {f : Frame}
    (h : LinkReady s) (he : serve s.arrived r = ⟨t, x, items⟩) (hi : exec i s = .next (s.feedRequest tag r) := by rfl)
    (hw : r.wf = true := by rfl) (hk : (r.kind == 0x02) = false := by rfl)
    (hf : ⟨r.kind + 0x80, tag, x.code :: (if x.carriesItems then items else [])⟩ = f := by rfl) :
    exec i s = .next (t.deliver f) := by
  have hp : r.payload.length ≤ 1024 := by
    unfold Request.wf at hw
    rw [Bool.and_eq_true] at hw
    exact of_decide_eq_true hw.1
  rw [hi, feedRequest_ready h hp (requestBytesReadBack r hw) (by simpa using hk), he, ← hf]
  rfl

/-- So does one served outside PARKED, under its own rule. -/
theorem exec_served {i : Instr} {s t : State} {r : Request} {x : Status} {items : List Byte} {tag : Byte} {f : Frame}
    (h : Serving s) (he : serveRule s.arrived r = ⟨t, x, items⟩) (hi : exec i s = .next (s.feedRequest tag r) := by rfl)
    (hw : r.wf = true := by rfl) (hk : (r.kind == 0x02) = false := by rfl)
    (hf : ⟨r.kind + 0x80, tag, x.code :: (if x.carriesItems then items else [])⟩ = f := by rfl) :
    exec i s = .next (t.deliver f) :=
  exec_linked h.1 ((serve_running (s := s.arrived) h.2 r).trans he) hi hw hk hf

/-- A request served while PARKED too. -/
theorem serve_always {r : Request} (h : servedParked r = true) (s : State) : serve s r = serveRule s r :=
  if_neg (fun g => by rw [h] at g; cases g.2)

/-- A frame of a request, sent as such. -/
theorem exec_goodFrame_request (s : State) (r : Request) (tag : Byte) :
    exec (.goodFrame r.kind tag r.payload) s = .next (s.feedRequest tag r) := rfl

/-! ### REPORT_PLAN (R177) -/

theorem keptInterval_eq (n : Nat) : keptInterval n = if n = 0 then 0 else if n < 8 then 8 else if 2048 < n then 2048 else n := by
  unfold keptInterval
  split
  · rfl
  · split
    · omega
    · split <;> omega

/-- Settles O54: the request's own rule, with the interval's clamp by cases. -/
theorem reportPlanIsClamped : Obligations.ReportPlanIsClamped := by
  intro tag set interval s h
  refine ⟨fun hset => exec_served (r := .reportPlan set interval) h (if_neg (Nat.not_lt.2 hset)), fun hset => ?_⟩
  have hserved : serveRule s.arrived (.reportPlan set interval) = _ := if_pos hset
  rw [keptInterval_eq] at hserved
  exact exec_served h hserved

/-! ### DEMAND (R172) -/

theorem wf_demand {mask : Byte} {rates : List Half} (h : rates.length = axisCount mask) : (Request.demand mask rates).wf = true := by
  have hfive : axisCount mask ≤ 5 := by
    have hbit (b : Bool) : b.toNat ≤ 1 := Bool.toNat_le b
    have := hbit (mask.getLsbD 0); have := hbit (mask.getLsbD 1); have := hbit (mask.getLsbD 2)
    have := hbit (mask.getLsbD 3); have := hbit (mask.getLsbD 4)
    unfold axisCount
    omega
  have hsize : (rates.flatMap halfBytes).length = 2 * rates.length := by
    simp [List.length_flatMap, length_halfBytes, Nat.mul_comm]
  unfold Request.wf
  simp only [Request.payload, List.length_cons, hsize, h, beq_self_eq_true, Bool.and_true, decide_eq_true_eq]
  omega

theorem hasAxis_axisSetOf (p : Axis → Bool) (k : Axis) : hasAxis (axisSetOf p) k = p k := by
  have hbits : ∀ a b c d e : Bool,
      hasAxis ((if a then 1 else 0) ||| (if b then 2 else 0) ||| (if c then 4 else 0) ||| (if d then 8 else 0) |||
        (if e then 16 else 0)) k = (⟨a, b, c, d, e⟩ : Five Bool).get k := by
    cases k <;> decide
  exact (hbits _ _ _ _ _).trans (by cases k <;> rfl)

theorem clampSym_eq (x : Int) {m : Int} (h : 0 ≤ m) : clampSym x m = max (-m) (min m x) := by
  unfold clampSym clampInt
  split
  · omega
  · split <;> omega

/-- A rate clamped to a tuning record's Rmax fits its field. -/
theorem toInt_half16_clampSym {r : Tuning} (h : r.ok = true) (x : Int) :
    (half16 (clampSym x r.rmax)).toInt = max (-(r.rmax : Int)) (min r.rmax x) := by
  have hmax := (Tuning.bounds_of_ok h).rmax
  rw [clampSym_eq x (by omega), toInt_half16 (by omega)]

theorem demandedRate_none (a : AxisRec) : demandedRate a none = none := rfl

theorem demandedRate_rate {a : AxisRec} (h : a.mode = .rate) (r : Half) :
    demandedRate a (some r) = some (half16 (clampSym r.toInt a.active.rmax)) := if_pos h

theorem demandedRate_other {a : AxisRec} (h : a.mode ≠ .rate) (r : Half) : demandedRate a (some r) = none := if_neg h

/-- What DEMAND makes of an axis. -/
theorem demandAxis_eq (rates : Five (Option Half)) (k : Axis) (a : AxisRec) :
    demandAxis rates k a = ((demandedRate a (rates.get k)).map (fun r => { a with rdTarget := r })).getD a := by
  unfold demandAxis
  cases demandedRate a (rates.get k) <;> rfl

/-- Settles O39: axis by axis, by the rate the axis takes. -/
theorem demandWritesRateAxes : Obligations.DemandWritesRateAxes := by
  intro tag mask rates s h hlen hok
  refine ⟨fun hmask => ?_, fun hmask => ?_⟩
  · exact exec_served (r := .demand mask rates) h (if_neg (by unfold maskInFive; simpa using hmask)) (hw := wf_demand hlen)
  · have hserved : serveRule s.arrived (.demand mask rates) = _ := if_pos (by unfold maskInFive; simpa using hmask)
    refine ⟨_, _, exec_served (r := .demand mask rates) h hserved (hw := wf_demand hlen), rfl, fun k => ?_⟩
    have haxis : State.axis { s.arrived with axes := s.arrived.axes.mapAxis (demandAxis (spreadOffsets mask rates)) } k =
        demandAxis (spreadOffsets mask rates) k (s.axis k) := Five.get_mapAxis _ _ _
    have hsame : s.arrived.axis k = s.axis k := rfl
    rw [hasAxis_axisSetOf, haxis, hsame, demandAxis_eq]
    change match (spreadOffsets mask rates).get k with | some _ => _ | none => _
    cases (spreadOffsets mask rates).get k with
    | none => exact ⟨rfl, rfl⟩
    | some r =>
      refine ⟨fun hm => ?_, fun hm => ?_⟩
      · rw [demandedRate_rate hm]
        exact ⟨rfl, _, rfl, toInt_half16_clampSym (hok k) _⟩
      · rw [demandedRate_other hm]
        exact ⟨rfl, rfl⟩

/-! ### HALT, RUN and STEP (R197, R198, R199) -/

theorem handOver_same (s : State) (k : Axis) (p : Passed) : SameOutside s (s.handOver k p) := by
  have hmarked : SameOutside s (if p.marked then s.feedCue (.mark k) else s) := by
    split
    · exact feedCue_same _ _
    · exact .rfl
  unfold State.handOver
  dsimp only
  cases p.ended with
  | none => exact hmarked.trans (settle_same _ _)
  | some n =>
    exact (hmarked.trans (settle_same _ _)).trans
      ((((reportSegment_same _ _ _ _).trans (settle_same _ _)).trans (feedCue_same _ _)).trans (settle_same _ _))

theorem compute_le (s : State) (k : Axis) (n : Nat) : (s.compute k n).le = s.le :=
  (handOver_same _ _ _).2.1.trans (computeAxis_le s k n)

theorem frameTask_le (s : State) (steps : List ReportStep) (acc : List Byte) (t : FrameTask) :
    (s.frameTask steps acc t).1.le = s.le := by
  cases t with
  | compute k n => exact compute_le s k n
  | count => exact ((countFrame_same s).trans (settle_same _ _)).2.1
  | report =>
    cases steps with
    | nil => rfl
    | cons r rest => exact (reportStep_same s acc r).2.1

theorem runTasks_le (fuel : Nat) (ts : List FrameTask) (steps : List ReportStep) (acc : List Byte) (s : State) :
    (runTasks fuel ts steps acc s).le = s.le := by
  induction fuel generalizing ts steps acc s with
  | zero => rfl
  | succ fuel ih =>
    cases ts with
    | nil => rfl
    | cons t ts =>
      unfold runTasks
      dsimp only
      rw [ih, frameTask_le, State.choose_le]

/-- A loop frame leaves the Loop Engine as its first two steps do (R41). -/
theorem takeFrame_le (s : State) : s.takeFrame.le = s.beginFrame.le := runTasks_le _ _ _ _ _

theorem beginFrame_le (s : State) :
    s.beginFrame.le =
      { s.le with
        frameNo := s.le.frameNo + 1
        ring := (baseTriple s :: s.le.ring).take 64
        heading := if s.si.sen.base.fresh then s.le.heading + s.si.sen.base.slot.yaw.signExtend 32 else s.le.heading } := by
  have hheading : wrapAdd s.le.heading (baseTriple s).yaw.toInt =
      if s.si.sen.base.fresh then s.le.heading + s.si.sen.base.slot.yaw.signExtend 32 else s.le.heading := by
    unfold wrapAdd baseTriple
    cases h : s.si.sen.base.fresh with
    | true => dsimp only; rw [if_pos h, if_pos rfl]; rfl
    | false => simp [h]
  unfold State.beginFrame
  rw [← hheading]

theorem takeHalt_running {s : State} (h : s.le.halted = false) :
    s.takeHalt = { s with le := { s.le with halted := true, frameTimer := false, frameElapsed := 0 }, dl := s.brakeAll.dl } := by
  have hstop : LoopEngine.timerShouldRun { s.le with halted := true } = false := Bool.and_false _
  unfold State.takeHalt
  rw [if_neg (by rw [h]; nofun)]
  unfold State.setFrameTimer
  rw [hstop]
  rfl

theorem takeRun_halted {s : State} (h : s.le.halted = true) (hp : s.le.park ≠ .parked) :
    s.takeRun = { s with le := { s.le with halted := false, frameTimer := true, frameElapsed := 0 } } := by
  have hrun : LoopEngine.timerShouldRun { s.le with halted := false } = true := by simp [LoopEngine.timerShouldRun, hp]
  unfold State.takeRun
  rw [if_pos h]
  unfold State.setFrameTimer
  rw [hrun]

/-- Settles O35: the flag and its timer; STEP's frame leaves the Loop Engine as its beginning does. -/
theorem haltRunAndStep : Obligations.HaltRunAndStep := by
  intro tag s h
  refine ⟨fun hrun => ⟨?_, ?_, ?_⟩, fun hhalt => ⟨?_, ?_, ?_, ?_⟩⟩
  · exact exec_served (r := .halt) h (congrArg done (takeHalt_running (s := s.arrived) hrun))
  · exact exec_served (r := .run) h (congrArg done (if_neg (by rw [show s.arrived.le.halted = _ from hrun]; nofun)))
  · exact exec_served (r := .step) h (if_neg (by rw [show s.arrived.le.halted = _ from hrun]; nofun))
  · exact exec_served (r := .halt) h (congrArg done (if_pos hhalt))
  · exact exec_served (r := .run) h (congrArg done (takeRun_halted (s := s.arrived) hhalt h.2))
  · exact exec_served (r := .step) h (if_pos hhalt)
  · exact (takeFrame_le _).trans (beginFrame_le _)

end Sys2Proof.Machine
end

section
/-! PROOFS. The requests that read, tune, lock, arm, erase, save, park: their checks and what they write. -/

namespace Sys2Proof.Machine

/-! ### The state a request is served in -/

section
variable (s : State)

@[simp] theorem State.arrived_si : s.arrived.si = s.si := rfl
@[simp] theorem State.arrived_axes : s.arrived.axes = s.axes := rfl
@[simp] theorem State.arrived_le : s.arrived.le = s.le := rfl
@[simp] theorem State.arrived_ms : s.arrived.ms = s.ms := rfl
@[simp] theorem State.arrived_sw : s.arrived.sw = s.sw := rfl
@[simp] theorem State.arrived_dl : s.arrived.dl = s.dl := rfl
@[simp] theorem State.arrived_alc : s.arrived.alc = s.alc := rfl
@[simp] theorem State.arrived_ps : s.arrived.ps = s.ps := rfl
@[simp] theorem State.arrived_protHigh : s.arrived.protHigh = s.protHigh := rfl
@[simp] theorem State.arrived_axis (k : Axis) : s.arrived.axis k = s.axis k := rfl
@[simp] theorem State.arrived_slot (k : Nat) : s.arrived.slot k = s.slot k := rfl

end

/-! ### Operands -/

theorem maskInFive_iff (m : Byte) : maskInFive m = true ↔ m.toNat < 32 := decide_eq_true_iff

theorem maskNamesAxes_iff (m : Byte) : maskNamesAxes m = true ↔ m ≠ 0 ∧ m.toNat < 32 := by
  unfold maskNamesAxes
  rw [Bool.and_eq_true, maskInFive_iff, bne_iff_ne]

theorem axisOfIndex_byteOf (k : Axis) : axisOfIndex (byteOf (axisIndex k)).toNat = some k := by cases k <;> rfl

theorem axisOfIndex_above {n : Nat} (h : 4 < n) : axisOfIndex n = none := by
  unfold axisOfIndex
  split <;> first | omega | rfl

theorem axisIndex_lt (k : Axis) : axisIndex k < 5 := by cases k <;> decide

theorem hasAxis_axisSet (m : Byte) (k : Axis) : hasAxis (axisSet m) k = m.getLsbD (axisIndex k) := by
  unfold hasAxis axisSet
  rw [BitVec.getLsbD_setWidth, decide_eq_true (axisIndex_lt k), Bool.true_and]

/-! ### Reading (R34, R39, R69, R90, R118, R157, R175, R191) -/

/-- Settles O34: each request's own rule, check by check. -/
theorem readRequestsAnswerAndChangeNothing : Obligations.ReadRequestsAnswerAndChangeNothing := by
  intro tag x y pin s
  refine ⟨fun h => ⟨?_, ?_, ?_, ?_, ?_, ?_, ?_⟩, fun h => ⟨?_, ?_⟩, ?_⟩
  case refine_1 =>
    split
    case isTrue hx => exact exec_served (r := .state x) h (if_pos ((maskNamesAxes_iff x).2 hx))
    case isFalse hx => exact exec_served (r := .state x) h (if_neg (fun e => hx ((maskNamesAxes_iff x).1 e)))
  case refine_2 =>
    rintro k rfl rfl
    have hserved : serveRule s.arrived (.tuneRead (byteOf (axisIndex k)) 0) =
        ⟨s.arrived, .ok, tuneRecord (s.arrived.axis k).active (s.arrived.axis k).swapPending⟩ := by cases k <;> rfl
    exact exec_served h hserved
  case refine_3 =>
    rintro k rfl rfl
    have hserved : serveRule s.arrived (.tuneRead (byteOf (axisIndex k)) 1) =
        ⟨s.arrived, .ok, tuneRecord (s.arrived.axis k).staged (s.arrived.axis k).swapPending⟩ := by cases k <;> rfl
    exact exec_served h hserved
  case refine_4 =>
    intro hxy
    have hserved : serveRule s.arrived (.tuneRead x y) = refused s.arrived .range := by
      change serveTuneRead s.arrived x y = _
      unfold serveTuneRead
      split
      case h_3 => rfl
      all_goals
        rename_i hk hy
        rcases hxy with hx | hy'
        · rw [axisOfIndex_above hx] at hk; cases hk
        · omega
    exact exec_served (r := .tuneRead x y) h hserved
  case refine_5 => exact exec_served (r := .queueRead) h rfl
  case refine_6 =>
    split
    case isTrue hx => exact exec_served (r := .wptRead x y) h (if_neg (by omega))
    case isFalse hx => exact exec_served (r := .wptRead x y) h (if_pos (by omega))
  case refine_7 => exact exec_served (r := .sweepRead) h rfl
  case refine_8 => exact exec_linked (r := .ident x) h (serve_always rfl _)
  case refine_9 => exact exec_linked (r := .alertRead x) h (serve_always rfl _)
  case refine_10 =>
    intro q h
    exact exec_linked (i := .goodFrame 0x2C tag [x]) (r := .storeStatus x) h (serve_always rfl _)

/-! ### TUNE and APPLY (R33, R35) -/

/-- The checks of a TUNE on a named axis. -/
theorem serveTune_axis (s : State) (k : Axis) (pairs : List TunePair) :
    serveTune s (byteOf (axisIndex k)) pairs =
      if 1 ≤ pairs.length ∧ pairs.length ≤ 30 ∧ pairs.all (pairOk k) = true ∧
          (trialRecord (s.axis k).staged pairs).crossOk = true then
        done (s.setAxis k { s.axis k with staged := trialRecord (s.axis k).staged pairs })
      else refused s .range := by
  unfold serveTune
  rw [axisOfIndex_byteOf]

theorem serveTune_none (s : State) {axis : Byte} (h : 4 < axis.toNat) (pairs : List TunePair) :
    serveTune s axis pairs = refused s .range := by
  unfold serveTune
  rw [axisOfIndex_above h]

theorem pairsOk_iff (k : Axis) (pairs : List TunePair) :
    pairs.all (pairOk k) = true ↔
      ∀ p ∈ pairs, fieldApplies p.field.toNat k = true ∧ fieldInRange p.field.toNat p.value.toInt = true := by
  simp [List.all_eq_true, pairOk]

theorem crossOk_iff (r : Tuning) : r.crossOk = true ↔ r.jmin < r.jmax ∧ r.udamp ≤ r.umax ∧ r.usafe ≤ r.umax := by
  simp [Tuning.crossOk, and_assoc]

/-- Settles O40: the list's checks, with the trial record formed as the statement forms it. -/
theorem tuneAndApply : Obligations.TuneAndApply := by
  intro tag axis mask pairs s h hw
  refine ⟨?_, fun hx => ?_, fun h0 hm => ?_, fun hm => ?_⟩
  · rintro k rfl
    intro trial passes
    have hpasses : passes ↔ 1 ≤ pairs.length ∧ pairs.length ≤ 30 ∧ pairs.all (pairOk k) = true ∧
        (trialRecord (s.axis k).staged pairs).crossOk = true := by
      rw [pairsOk_iff, crossOk_iff]
      exact Iff.rfl
    refine ⟨fun hp => ?_, fun hp => ?_⟩
    · exact exec_served (r := .tune _ pairs) h ((serveTune_axis _ k pairs).trans (if_pos (hpasses.1 hp))) (hw := hw)
    · exact exec_served (r := .tune _ pairs) h ((serveTune_axis _ k pairs).trans (if_neg (fun g => hp (hpasses.2 g)))) (hw := hw)
  · exact exec_served (r := .tune axis pairs) h (serveTune_none _ hx pairs) (hw := hw)
  · have hserved : serveRule s.arrived (.apply mask) = _ := if_pos ((maskNamesAxes_iff mask).2 ⟨h0, hm⟩)
    simp only [hasAxis_axisSet] at hserved
    exact exec_served h hserved
  · have hserved : serveRule s.arrived (.apply mask) = _ :=
      if_neg (fun e => by obtain ⟨h0, hlt⟩ := (maskNamesAxes_iff mask).1 e; exact hm.elim h0 (Nat.not_le.2 hlt))
    exact exec_served h hserved

/-! ### WPT_WRITE and WPT_LOCK (R68, R70) -/

/-- One record written of a list that starts at place `n` of its request. -/
def writeRecord (start : Nat) (ws : List Waypoint) (p : WptRecord × Nat) : List Waypoint :=
  ws.set (writeSlot start p.2) (storedWaypoint p.1)

theorem writtenSlots_eq (ws : List Waypoint) (start : Nat) (rs : List WptRecord) :
    writtenSlots ws start rs = (rs.zipIdx 0).foldl (writeRecord start) ws := rfl

/-- A slot that no record goes to stays. -/
theorem writeRecords_other (start : Nat) (rs : List WptRecord) (ws : List Waypoint) (n i : Nat)
    (h : ∀ j, j < rs.length → writeSlot start (n + j) ≠ i) : ((rs.zipIdx n).foldl (writeRecord start) ws)[i]? = ws[i]? := by
  induction rs generalizing ws n with
  | nil => rfl
  | cons r rs ih =>
    rw [List.zipIdx_cons, List.foldl_cons, ih]
    · exact List.getElem?_set_ne (h 0 (Nat.succ_pos _))
    · intro j hj
      rw [show n + 1 + j = n + (j + 1) from by omega]
      exact h (j + 1) (Nat.succ_lt_succ hj)

theorem writeSlot_page (start j : Nat) : writeSlot start j / 16 = start / 16 := by
  unfold writeSlot
  omega

/-- Records fewer than 16 apart go to different slots. -/
theorem writeSlot_ne (start : Nat) {i j : Nat} (hij : i < j) (hj : j < i + 16) : writeSlot start j ≠ writeSlot start i := by
  unfold writeSlot
  omega

/-- The last record that goes to a slot is what it holds. -/
theorem writeRecords_last (start : Nat) (rs : List WptRecord) (ws : List Waypoint) (n j : Nat) (r : WptRecord)
    (hr : rs[j]? = some r) (hlast : rs.length ≤ j + 16) (hin : writeSlot start (n + j) < ws.length) :
    ((rs.zipIdx n).foldl (writeRecord start) ws)[writeSlot start (n + j)]? = some (storedWaypoint r) := by
  induction rs generalizing ws n j with
  | nil => cases hr
  | cons q rs ih =>
    rw [List.zipIdx_cons, List.foldl_cons]
    cases j with
    | zero =>
      obtain rfl : q = r := Option.some.inj hr
      rw [writeRecords_other]
      · exact List.getElem?_set_self hin
      · intro j hj
        rw [List.length_cons] at hlast
        rw [show n + 1 + j = n + (j + 1) from by omega]
        exact writeSlot_ne start (by omega) (by omega)
    | succ j =>
      rw [List.length_cons] at hlast
      rw [show n + (j + 1) = n + 1 + j from by omega] at hin ⊢
      exact ih _ (n + 1) j hr (by omega) (by rw [writeRecord, List.length_set]; exact hin)

theorem writeSlot_lt {start : Nat} (h : start ≤ 63) (j : Nat) : writeSlot start j < 64 := by
  unfold writeSlot
  omega

/-- Settles O43: the slots by the record that comes last to them. -/
theorem waypointWritesStayInPage : Obligations.WaypointWritesStayInPage := by
  intro tag start flags rs s h hw hlen a fits page
  have hfits : fits ↔
      ¬(63 < start.toNat ∨ rs.isEmpty = true ∨ 48 < rs.length ∨ rs.all (fun r => maskInFive r.mask) = false) := by
    simp [fits, maskInFive, List.isEmpty_iff]
  refine ⟨fun hf => ?_, fun hf hlock => ?_, fun hf hlock => ?_, fun hf => ?_, fun hf => ?_⟩
  · exact exec_served (r := .wptWrite start rs) h (if_pos (not_not.1 (fun e => hf (hfits.2 e)))) (hw := hw)
  · exact exec_served (r := .wptWrite start rs) h ((if_neg (hfits.1 hf)).trans (if_pos hlock)) (hw := hw)
  · have hslot (i : Nat) : 16 * page + (start.toNat % 16 + i) % 16 = writeSlot start.toNat (0 + i) := by
      rw [writeSlot, Nat.zero_add, Nat.mul_comm]
    refine ⟨writtenSlots s.ms.waypoints start.toNat rs, (length_writtenSlots _ _ _).trans hlen, ?_, fun i hi => ?_,
      fun i hi hne => ?_, fun j r hr hlast => ?_⟩
    · exact exec_served (r := .wptWrite start rs) h ((if_neg (hfits.1 hf)).trans (if_neg (by rw [show s.arrived.ms.locks.getLsbD _ = _ from hlock]; nofun))) (hw := hw)
    · exact writeRecords_other _ rs _ 0 i (fun j _ e => hi (by rw [← e]; exact writeSlot_page _ _))
    · refine writeRecords_other _ rs _ 0 _ (fun j hj e => hne j hj ?_)
      rw [← hslot] at e
      omega
    · rw [hslot]
      exact writeRecords_last _ rs _ 0 j r hr hlast (by rw [hlen]; exact writeSlot_lt hf.1 _)
  · exact exec_served (r := .wptLock flags) h (if_neg (Nat.not_lt.2 hf))
  · exact exec_served (r := .wptLock flags) h (if_pos hf)

/-! ### The store's writing requests (R183 to R187) -/

theorem serveStoreSave_refused {s : State} {slot : Byte} {x : Status} (h : slotCheck s slot true = some x) :
    serveStoreSave s slot = refused s x := by
  unfold serveStoreSave
  rw [h]

theorem serveStoreSave_accepted {s : State} {slot : Byte} (h : slotCheck s slot true = none) :
    serveStoreSave s slot =
      ⟨(s.markPartial slot.toNat).beginBusy (.saving slot.toNat (capturedImage s)), .accepted, []⟩ := by
  unfold serveStoreSave
  rw [h]

theorem serveStoreErase_refused {s : State} {slot : Byte} {x : Status} (h : slotCheck s slot false = some x) :
    serveStoreErase s slot = refused s x := by
  unfold serveStoreErase
  rw [h]

theorem serveStoreErase_accepted {s : State} {slot : Byte} (h : slotCheck s slot false = none) :
    serveStoreErase s slot = ⟨(s.markPartial slot.toNat).beginBusy (.erasing slot.toNat), .accepted, []⟩ := by
  unfold serveStoreErase
  rw [h]

theorem serveStoreProtect_refused {s : State} {count freeze : Byte} {x : Status} (h : protectCheck s count freeze = some x) :
    serveStoreProtect s count freeze = refused s x := by
  unfold serveStoreProtect
  rw [h]

theorem serveStoreProtect_accepted {s : State} {count freeze : Byte} (h : protectCheck s count freeze = none) :
    serveStoreProtect s count freeze = ⟨s.beginBusy (.protecting count.toNat (freeze = 1)), .accepted, []⟩ := by
  unfold serveStoreProtect
  rw [h]

/-- Settles O49: the checks in their order. -/
theorem storeWritingChecksInOrder : Obligations.StoreWritingChecksInOrder := by
  intro tag slot count freeze pin s h hpin
  refine ⟨fun option ho => ?_, ?_, ?_, ?_, ?_, ?_⟩
  case refine_1 => exact exec_served (r := .storeArm option) h (if_pos ho)
  case refine_2 =>
    split_ifs with hb
    · exact exec_served (r := .storeArm 0) h (if_neg (not_not.2 hb))
    · exact exec_served (r := .storeArm 0) h (if_pos hb)
  case refine_3 =>
    split_ifs with hb
    · exact exec_served (r := .storeArm 1) h (if_neg (not_not.2 hb))
    · exact exec_served (r := .storeArm 1) h (if_pos hb)
  case refine_4 =>
    have hsome {x : Status} (hx : slotCheck s slot true = some x) := serveStoreSave_refused (s := s.arrived) hx
    have hnone (hx : slotCheck s slot true = none) := serveStoreSave_accepted (s := s.arrived) hx
    split_ifs with h1 h2 h3 h4 h5
    · exact exec_served (r := .storeSave slot) h (hsome (if_pos h1))
    · exact exec_served (r := .storeSave slot) h (hsome (by rw [slotCheck, if_neg h1, if_pos h2]))
    · exact exec_served (r := .storeSave slot) h (hsome (by rw [slotCheck, if_neg h1, if_neg h2, if_pos h3]))
    · exact exec_served (r := .storeSave slot) h (hsome (by rw [slotCheck, if_neg h1, if_neg h2, if_neg h3, if_pos h4]))
    · exact exec_served (r := .storeSave slot) h
        (hsome (by rw [slotCheck, if_neg h1, if_neg h2, if_neg h3, if_neg h4, if_pos ⟨rfl, h5⟩]))
    · exact exec_served (r := .storeSave slot) h
        (hnone (by rw [slotCheck, if_neg h1, if_neg h2, if_neg h3, if_neg h4, if_neg (fun e => h5 e.2)]))
  case refine_5 =>
    have hsome {x : Status} (hx : slotCheck s slot false = some x) := serveStoreErase_refused (s := s.arrived) hx
    have hnone (hx : slotCheck s slot false = none) := serveStoreErase_accepted (s := s.arrived) hx
    split_ifs with h1 h2 h3 h4
    · exact exec_served (r := .storeErase slot) h (hsome (if_pos h1))
    · exact exec_served (r := .storeErase slot) h (hsome (by rw [slotCheck, if_neg h1, if_pos h2]))
    · exact exec_served (r := .storeErase slot) h (hsome (by rw [slotCheck, if_neg h1, if_neg h2, if_pos h3]))
    · exact exec_served (r := .storeErase slot) h (hsome (by rw [slotCheck, if_neg h1, if_neg h2, if_neg h3, if_pos h4]))
    · exact exec_served (r := .storeErase slot) h
        (hnone (by rw [slotCheck, if_neg h1, if_neg h2, if_neg h3, if_neg h4, if_neg (fun e => by cases e.1)]))
  case refine_6 =>
    have hsent : exec (.storeProtect tag count freeze pin) s = exec (.goodFrame 0x2D tag [count, freeze]) (s.setProt pin) := rfl
    have hsome {x : Status} (hx : protectCheck (s.setProt pin) count freeze = some x) :=
      serveStoreProtect_refused (s := (s.setProt pin).arrived) hx
    have hnone (hx : protectCheck (s.setProt pin) count freeze = none) :=
      serveStoreProtect_accepted (s := (s.setProt pin).arrived) hx
    rw [hsent]
    dsimp only
    split_ifs with h1 h2 h3 h4
    · exact exec_served (r := .storeProtect count freeze) hpin (hsome (if_pos h1))
    · exact exec_served (r := .storeProtect count freeze) hpin (hsome ((if_neg h1).trans (if_pos h2)))
    · exact exec_served (r := .storeProtect count freeze) hpin (hsome ((if_neg h1).trans ((if_neg h2).trans (if_pos h3))))
    · exact exec_served (r := .storeProtect count freeze) hpin
        (hsome ((if_neg h1).trans ((if_neg h2).trans ((if_neg h3).trans (if_pos h4)))))
    · exact exec_served (r := .storeProtect count freeze) hpin
        (hnone ((if_neg h1).trans ((if_neg h2).trans ((if_neg h3).trans (if_neg h4)))))

/-! ### The store's completions (R185 to R188) -/

/-- Settles O52: the completion of the operation in progress, and of any other. -/
theorem storeCompletions : Obligations.StoreCompletions := by
  intro s
  have hother {x : Busy} {t : State} (hx : s.ps.busy = x) (h : t = s) : Host.Outcome.next t = (.next s : Answer) := by rw [h]
  refine ⟨fun k img hb => ?_, fun k hb => ⟨?_, fun i => ?_⟩, fun count freeze hb => ?_, fun hb => ?_, fun hb => ?_, fun hb => ?_⟩
  · change Host.Outcome.next s.completeSave = _
    unfold State.completeSave
    rw [hb]
    rfl
  · change Host.Outcome.next s.completeErase = _
    unfold State.completeErase
    rw [hb]
    rfl
  · change goodWord 0 = _
    decide
  · change Host.Outcome.next s.completeProtect = _
    unfold State.completeProtect
    rw [hb]
    cases freeze <;> rfl
  · change Host.Outcome.next s.completeSave = _
    unfold State.completeSave
    split
    · next k img hk => exact absurd hk (hb k img)
    · rfl
  · change Host.Outcome.next s.completeErase = _
    unfold State.completeErase
    split
    · next k hk => exact absurd hk (hb k)
    · rfl
  · change Host.Outcome.next s.completeProtect = _
    unfold State.completeProtect
    split
    · next count freeze hk => exact absurd hk (hb count freeze)
    · rfl

/-! ### PARK and UNPARK (R194, R196) -/

/-- Outside PARKED a PARK is refused exactly while something moves or is in progress. -/
theorem parkRefused_iff {s : State} (h : s.le.park ≠ .parked) :
    parkRefused s = false ↔ s.le.park = .running ∧ (∀ k, (s.axis k).mode = .off ∨ (s.axis k).mode = .stopped) ∧
      s.ms.running = false ∧ s.sw.running = false ∧ s.ps.busy = .idle := by
  have haxes : allAxes.any (fun k => !decide ((s.axis k).mode = .off ∨ (s.axis k).mode = .stopped)) = false ↔
      ∀ k, (s.axis k).mode = .off ∨ (s.axis k).mode = .stopped := by
    simp [List.any_eq_false, mem_allAxes, or_iff_not_imp_left]
  have hpark : ¬s.le.park = .unparking ↔ s.le.park = .running := by
    cases hp : s.le.park <;> simp_all
  unfold parkRefused
  rw [Bool.or_eq_false_iff, Bool.or_eq_false_iff, Bool.or_eq_false_iff, Bool.or_eq_false_iff, haxes, decide_eq_false_iff_not,
    decide_eq_false_iff_not, hpark, not_not, and_assoc, and_assoc, and_assoc]

/-- Settles O53: the refusals of PARK, and the events that it, UNPARK and the settling's end are. -/
theorem parkAndUnpark : Obligations.ParkAndUnpark := by
  intro tag s a closed reopened still
  refine ⟨fun h hs => ?_, fun h hs => ?_, fun h hp => ⟨?_, ?_⟩, fun h hp => ?_, fun hp => ?_, fun hp => ?_⟩
  · exact exec_served (r := .park) h (if_neg (by rw [show parkRefused s.arrived = _ from (parkRefused_iff h.2).2 hs]; nofun))
  · exact exec_served (r := .park) h (if_pos (by simpa using fun e => hs ((parkRefused_iff (s := s.arrived) h.2).1 e)))
  · exact exec_linked (r := .park) h (if_pos ⟨hp, rfl⟩)
  · exact exec_linked (r := .unpark) h ((serve_always rfl _).trans (if_pos hp))
  · exact exec_linked (r := .unpark) h ((serve_always rfl _).trans (if_neg hp))
  · exact congrArg Host.Outcome.next (if_pos hp)
  · exact congrArg Host.Outcome.next (if_neg hp)

/-! ### The silence timer's expiry (R170) -/

/-- Settles O33: at the limit the expiry, below it nothing. -/
theorem silenceExpiryZeroesRates : Obligations.SilenceExpiryZeroesRates := by
  intro s
  refine ⟨fun h => ⟨?_, rfl⟩, fun h => ?_⟩
  · exact congrArg Host.Outcome.next (if_pos ((silenceDue_iff s).2 h))
  · exact congrArg Host.Outcome.next (if_neg (fun e => h ((silenceDue_iff s).1 e)))

end Sys2Proof.Machine
end

section
/-! PROOFS. SETUP: the ranges of its fields, the record and the table it writes, the limits taken up at once. -/

namespace Sys2Proof.Machine

/-! ### A part at rest takes a request in at rest -/

theorem LinkReady.arrived {s : State} (h : LinkReady s) : AtRest s.arrived :=
  (atRest_restartSilence h.2.2.2.2 h.2.2.2.1).same {} {}

/-- The flags and the phase apart, what the head waits for is the same: a setup record and a cue source table are not seen. -/
theorem AtRest.setSetup {s : State} (h : AtRest s) (x : Setup) (table : List Selector) :
    AtRest { s with cl := { s.cl with setup := x }, ms := { s.ms with cueSources := table } } := h.same {} {}

/-! ### Limits written (R6, R171) -/

/-- A unit judged against a staleness limit. -/
def InertialPort.restaled (p : InertialPort) (limit : Nat) : InertialPort :=
  if p.fresh = true ∧ limit ≤ p.elapsed then { p with fresh := false, elapsed := 0 } else p

/-- An encoder judged against a staleness limit. -/
def EncoderPort.restaled (p : EncoderPort) (limit : Nat) : EncoderPort :=
  if p.fresh = true ∧ limit ≤ p.elapsed then { p with fresh := false, elapsed := 0 } else p

theorem setSen_self (s : State) (u : SenUnit) : s.setSen u (s.si.sen.get u) = s := by cases u <;> rfl

theorem setEnc_self (s : State) (k : Axis) : s.setEnc k (s.si.enc.get k) = s := by cases k <;> rfl

/-- A unit's staleness limit in wall-time units. -/
def unitLimit (s : State) (u : SenUnit) : Nat := 15625 * s.cl.setup.staleLimit.get u

theorem rejudge_sen (s : State) (u : SenUnit) :
    (if staleDue s (.sen u) then s.makeStale (.sen u) else s) = s.setSen u ((s.si.sen.get u).restaled (unitLimit s u)) := by
  have hdue : staleDue s (.sen u) = true ↔ (s.si.sen.get u).fresh = true ∧ unitLimit s u ≤ (s.si.sen.get u).elapsed :=
    staleDue_sen s u
  unfold InertialPort.restaled
  split
  case isTrue h => rw [if_pos (hdue.1 h)]; rfl
  case isFalse h => rw [if_neg (fun e => h (hdue.2 e)), setSen_self]

theorem rejudge_enc (s : State) (k : Axis) :
    (if staleDue s (.enc k) then s.makeStale (.enc k) else s) =
      s.setEnc k ((s.si.enc.get k).restaled (unitLimit s (feedbackUnit k))) := by
  have hdue : staleDue s (.enc k) = true ↔
      (s.si.enc.get k).fresh = true ∧ unitLimit s (feedbackUnit k) ≤ (s.si.enc.get k).elapsed := by
    rw [staleDue_enc, feedbackUnit_eq]
    exact Iff.rfl
  unfold EncoderPort.restaled
  split
  case isTrue h => rw [if_pos (hdue.1 h)]; rfl
  case isFalse h => rw [if_neg (fun e => h (hdue.2 e)), setEnc_self]

/-- The ports with those of a unit judged against its limit. -/
def SensorIntake.rejudged (x : SensorIntake) (u : SenUnit) (limit : Nat) : SensorIntake where
  sen := x.sen.mapUnit (fun v p => if v = u then p.restaled limit else p)
  enc := x.enc.mapAxis (fun k p => if feedbackUnit k = u then p.restaled limit else p)

theorem rejudgeStale_eq (s : State) (u : SenUnit) : s.rejudgeStale u = { s with si := s.si.rejudged u (unitLimit s u) } := by
  unfold State.rejudgeStale
  cases u <;> simp only [portsOfUnit, List.foldl_cons, List.foldl_nil, rejudge_sen, rejudge_enc] <;> rfl

/-- A running silence timer that has reached the limit (R171). -/
theorem rejudgeSilence_eq (s : State) :
    s.rejudgeSilence =
      { s with
        axes := s.axes.mapAxis (fun _ a => if silenceDue s = true ∧ a.mode = .rate then { a with rdTarget := 0 } else a)
        cl :=
          { s.cl with
            silence := if silenceDue s then .expired else s.cl.silence
            silenceElapsed := if silenceDue s then 0 else s.cl.silenceElapsed } } := by
  unfold State.rejudgeSilence
  cases h : silenceDue s with
  | true => simp [State.expireSilence, State.zeroRates]
  | false => simp [Five.mapAxis]

theorem writeSetup_ms (s : State) (x : Setup) (w : SetupWritten) : (s.writeSetup x w).ms = s.ms := by
  obtain ⟨silence, base, tip, head⟩ := w
  cases silence <;> cases base <;> cases tip <;> cases head <;>
    simp [State.writeSetup, rejudgeStale_eq, rejudgeSilence_eq]

theorem writeSetup_setup (s : State) (x : Setup) (w : SetupWritten) : (s.writeSetup x w).cl.setup = x := by
  obtain ⟨silence, base, tip, head⟩ := w
  cases silence <;> cases base <;> cases tip <;> cases head <;>
    simp [State.writeSetup, rejudgeStale_eq, rejudgeSilence_eq]

/-! ### The ranges of SETUP's fields (R173) -/

theorem whenPresent_iff {α : Type} (p : α → Bool) (x : Option α) : whenPresent p x = true ↔ ∀ b, x = some b → p b = true := by
  cases x <;> simp [whenPresent]

theorem selectorOf_isSome_iff (code param : Byte) :
    (selectorOf code param).isSome = true ↔
      ¬(5 < code.toNat ∨ (code.toNat = 1 ∨ code.toNat = 2) ∧ 4 < param.toNat ∨ code.toNat = 3 ∧ 1 < param.toNat ∨
        code.toNat = 5 ∧ (param.toNat < 1 ∨ 2 < param.toNat)) := by
  have haxis : (axisOfIndex param.toNat).isSome = true ↔ param.toNat ≤ 4 := by
    unfold axisOfIndex
    split <;> simp_all
    omega
  unfold selectorOf
  split
  case h_4 h => split <;> simp_all; omega
  case h_6 h => split <;> simp_all; omega
  all_goals simp_all
  all_goals omega

theorem wf_setup (f : SetupFields) : (Request.setup f).wf = true := by
  have hbyte (x : Option Byte) : (optByteBytes x).length ≤ 1 := by cases x <;> simp [optByteBytes]
  have hhalf (x : Option Half) : (optHalfBytes x).length ≤ 2 := by cases x <;> simp [optHalfBytes, length_halfBytes]
  have hsel (x : Option RawSelector) : (optSelectorBytes x).length ≤ 2 := by cases x <;> simp [optSelectorBytes]
  have := hbyte f.staleBase; have := hbyte f.staleTip; have := hbyte f.staleHead; have := hbyte f.driverMiss
  have := hbyte f.strictLoad; have := hhalf f.silence; have := hhalf f.gravBand
  have := hsel f.sel0; have := hsel f.sel1; have := hsel f.sel2; have := hsel f.sel3
  have := hsel f.sel4; have := hsel f.sel5; have := hsel f.sel6; have := hsel f.sel7
  unfold Request.wf
  simp only [Request.payload, SetupFields.bytes, SetupFields.selectors, List.flatMap_cons, List.flatMap_nil, List.length_append,
    List.length_cons, List.length_nil, Bool.and_true, decide_eq_true_eq]
  omega

theorem setupOk_iff (f : SetupFields) :
    setupOk f = true ↔
      (∀ b, f.staleBase = some b → 1 ≤ b.toNat ∧ b.toNat ≤ 64) ∧ (∀ b, f.staleTip = some b → 1 ≤ b.toNat ∧ b.toNat ≤ 64) ∧
      (∀ b, f.staleHead = some b → 1 ≤ b.toNat ∧ b.toNat ≤ 64) ∧ (∀ h, f.gravBand = some h → 10 ≤ h.toNat ∧ h.toNat ≤ 500) ∧
      (∀ b, f.driverMiss = some b → 1 ≤ b.toNat ∧ b.toNat ≤ 15) ∧ (∀ b, f.strictLoad = some b → b.toNat ≤ 1) ∧
      f.bit7 = false ∧ ∀ c, some c ∈ f.selectors → (selectorOf c.code c.param).isSome = true := by
  have hselectors : f.selectors.all (whenPresent rawSelectorOk) = true ↔
      ∀ c, some c ∈ f.selectors → (selectorOf c.code c.param).isSome = true := by
    rw [List.all_eq_true]
    exact ⟨fun h c hc => (whenPresent_iff _ _).1 (h _ hc) c rfl, fun h x hx => (whenPresent_iff _ _).2 (fun c e => h c (e ▸ hx))⟩
  unfold setupOk
  simp only [Bool.and_eq_true, whenPresent_iff, hselectors, Bool.not_eq_true', staleInRange, gravInRange, missInRange,
    strictInRange, decide_eq_true_eq, and_assoc]

/-! ### What an accepted SETUP leaves (R173) -/

/-- A setup record with the present fields of a SETUP that passes its check. -/
theorem setupAfter_eq (x : Setup) {f : SetupFields} (h : setupOk f = true) :
    setupAfter x f =
      { silenceLimit := (match f.silence with | some h => max 20 (min h.toNat 2000) | none => x.silenceLimit)
        staleLimit :=
          { base := (match f.staleBase with | some b => b.toNat | none => x.staleLimit.base)
            tip := (match f.staleTip with | some b => b.toNat | none => x.staleLimit.tip)
            head := (match f.staleHead with | some b => b.toNat | none => x.staleLimit.head) }
        gravBand := (match f.gravBand with | some h => h.toNat | none => x.gravBand)
        driverMissLimit := (match f.driverMiss with | some b => b.toNat | none => x.driverMissLimit)
        strictLoad := (match f.strictLoad with | some b => decide (b = 1) | none => x.strictLoad) } := by
  have hbyte (y : Option Byte) (n : Nat) : byteOr y n = match y with | some b => b.toNat | none => n := by cases y <;> rfl
  have hhalf (y : Option Half) (n : Nat) : (y.map BitVec.toNat).getD n = match y with | some b => b.toNat | none => n := by
    cases y <;> rfl
  have hsilence : (f.silence.map (fun h => clampSilence h.toNat)).getD x.silenceLimit =
      match f.silence with | some h => max 20 (min h.toNat 2000) | none => x.silenceLimit := by cases f.silence <;> rfl
  have hstrict : (f.strictLoad.map (fun b => decide (b ≠ 0))).getD x.strictLoad =
      match f.strictLoad with | some b => decide (b = 1) | none => x.strictLoad := by
    obtain ⟨-, -, -, -, -, hle, -⟩ := (setupOk_iff f).1 h
    cases hs : f.strictLoad with
    | none => rfl
    | some b =>
      have hb := hle b hs
      have hone : b ≠ 0 ↔ b = 1 := by bv_omega
      exact decide_eq_decide.2 hone
  unfold setupAfter
  rw [hbyte, hbyte, hbyte, hbyte, hhalf, hsilence, hstrict]

theorem tableAfter_getElem? {table : List Selector} {f : SetupFields} {n : Nat} (hn : n < 8) {old : Selector}
    (h : table[n]? = some old) :
    (tableAfter table f)[n]? =
      some (((f.selectors[n]?.getD none).bind (fun q : RawSelector => selectorOf q.code q.param)).getD old) := by
  have hlen : n < f.selectors.length := hn
  unfold tableAfter
  rw [List.getElem?_zipWith, h, List.getElem?_eq_getElem hlen]
  rfl

/-- Settles O36: the check field by field; the writes survive the settling, which leaves the record and the table alone. -/
theorem setupWritesPresentFields : Obligations.SetupWritesPresentFields := by
  intro tag f s h a t outside badSelector bad
  have hbad : bad ↔ ¬setupOk f = true := by
    have houtside (x : Option Byte) (lo hi : Nat) : outside x lo hi ↔ ¬∀ b, x = some b → lo ≤ b.toNat ∧ b.toNat ≤ hi := by
      simp only [outside, not_forall, not_and_or, not_le, exists_prop]
    have hsel : (∃ c, some c ∈ f.selectors ∧ badSelector c) ↔
        ¬∀ c, some c ∈ f.selectors → (selectorOf c.code c.param).isSome = true := by
      simp only [selectorOf_isSome_iff, not_forall, not_not, exists_prop, badSelector]
    have hgrav : (∃ h, f.gravBand = some h ∧ (h.toNat < 10 ∨ 500 < h.toNat)) ↔
        ¬∀ h, f.gravBand = some h → 10 ≤ h.toNat ∧ h.toNat ≤ 500 := by
      simp only [not_forall, not_and_or, not_le, exists_prop]
    have hstrict : outside f.strictLoad 0 1 ↔ ¬∀ b, f.strictLoad = some b → b.toNat ≤ 1 := by
      rw [houtside]
      simp only [Nat.zero_le, true_and]
    rw [setupOk_iff]
    simp only [bad, houtside f.staleBase, houtside f.staleTip, houtside f.staleHead, houtside f.driverMiss, hgrav, hstrict, hsel,
      not_and_or, Bool.not_eq_false]
  refine ⟨fun hb => ?_, fun hb => ?_⟩
  · exact exec_served (r := .setup f) h (if_neg (hbad.1 hb)) (hw := wf_setup f)
  · have hok : setupOk f = true := not_not.1 (fun e => hb (hbad.2 e))
    set u : State := (a.setCueTable (tableAfter a.ms.cueSources f)).writeSetup (setupAfter a.cl.setup f)
      ⟨f.silence.isSome, f.staleBase.isSome, f.staleTip.isSome, f.staleHead.isSome⟩ with hu
    have ht : t = u.settle [] := rfl
    have hsetup : t.cl.setup = setupAfter s.cl.setup f := by
      obtain ⟨-, -, -, -, -, -, -, hcl⟩ := settle_same u []
      rw [ht, hcl, hu, writeSetup_setup]
      rfl
    have htable : t.ms.cueSources = tableAfter s.ms.cueSources f := by
      rw [ht, (alertWork_settle u []).ms, hu, writeSetup_ms]
      rfl
    refine ⟨exec_served (r := .setup f) h (if_pos hok) (hw := wf_setup f), hsetup.trans (setupAfter_eq _ hok), ?_, ?_⟩
    · intro n old hn hold
      refine ⟨_, (congrArg (·[n]?) htable).trans (tableAfter_getElem? hn hold), ?_⟩
      cases hsel : f.selectors[n]? with
      | none => rfl
      | some x =>
        cases x with
        | none => rfl
        | some c =>
          have hmem : some c ∈ f.selectors := List.mem_of_getElem? hsel
          obtain ⟨-, -, -, -, -, -, -, hsome⟩ := (setupOk_iff f).1 hok
          obtain ⟨y, hy⟩ := Option.isSome_iff_exists.1 (hsome c hmem)
          change selectorOf c.code c.param = some ((selectorOf c.code c.param).getD old)
          rw [hy]
          rfl
    · intro h1 h2 h3 h4
      have hwritten : u =
          { a with cl := { a.cl with setup := setupAfter a.cl.setup f }, ms := { a.ms with cueSources := tableAfter a.ms.cueSources f } } := by
        rw [hu, h1, h2, h3, h4]
        rfl
      have hrest : t = u := ht.trans (settle_atRest (hwritten ▸ h.1.arrived.setSetup _ _))
      rw [hsetup, htable, hrest, hwritten]
      rfl

end Sys2Proof.Machine
end

section
/-! PROOFS. QUEUE_ADD: the checks of each entry, the offsets spread over the axes, the entries numbered. -/

namespace Sys2Proof.Machine

/-! ### A list mapped whole or refused -/

theorem mapM_eq_some_iff {α β : Type} (g : α → Option β) (l : List α) (xs : List β) :
    l.mapM g = some xs ↔ List.Forall₂ (fun a x => g a = some x) l xs := by
  induction l generalizing xs with
  | nil => simp [eq_comm]
  | cons a l ih =>
    simp only [List.mapM_cons, Option.bind_eq_bind, Option.pure_def, Option.bind_eq_some_iff, List.forall₂_cons_left_iff, ih]
    constructor
    · rintro ⟨x, hx, xs', hxs, he⟩
      exact ⟨x, xs', hx, hxs, (Option.some.inj he).symm⟩
    · rintro ⟨x, xs', hx, hxs, rfl⟩
      exact ⟨x, hx, xs', hxs, rfl⟩

/-- A list whose members all map is mapped whole. -/
theorem exists_mapM {α β : Type} {g : α → Option β} {l : List α} (h : ∀ a ∈ l, ∃ x, g a = some x) : ∃ xs, l.mapM g = some xs := by
  induction l with
  | nil => exact ⟨[], rfl⟩
  | cons a l ih =>
    obtain ⟨x, hx⟩ := h a (List.mem_cons_self ..)
    obtain ⟨xs, hxs⟩ := ih (fun b hb => h b (List.mem_cons_of_mem _ hb))
    exact ⟨x :: xs, by simp [List.mapM_cons, hx, hxs]⟩

theorem length_mapM {α β : Type} {g : α → Option β} {l : List α} {xs : List β} (h : l.mapM g = some xs) : xs.length = l.length :=
  ((mapM_eq_some_iff g l xs).1 h).length_eq.symm

theorem mapM_getElem? {α β : Type} {g : α → Option β} {l : List α} {xs : List β} (h : l.mapM g = some xs) {i : Nat} {a : α}
    (ha : l[i]? = some a) : ∃ x, g a = some x ∧ xs[i]? = some x := by
  have hall := (mapM_eq_some_iff g l xs).1 h
  clear h
  induction hall generalizing i with
  | nil => cases ha
  | cons hx _ ih =>
    cases i with
    | zero => obtain rfl := Option.some.inj ha; exact ⟨_, hx, rfl⟩
    | succ i => exact ih ha

/-! ### Offsets spread over the axes of a mask (R71) -/

theorem getElem?_filterMap_rank {α β : Type} (f : α → Option β) (l₁ l₂ : List α) {a : α} (h : (f a).isSome = true) :
    ((l₁ ++ a :: l₂).filterMap f)[(l₁.filter (fun b => (f b).isSome)).length]? = f a := by
  obtain ⟨x, hx⟩ := Option.isSome_iff_exists.1 h
  have hlen : (l₁.filter (fun b => (f b).isSome)).length = (l₁.filterMap f).length := by
    rw [List.length_filterMap_eq_countP, List.countP_eq_length_filter]
  rw [hlen, List.filterMap_append, List.getElem?_append_right (le_refl _), Nat.sub_self, List.filterMap_cons_some hx, hx]
  rfl

/-- Values can be given to the members of a list for which `p` holds. -/
theorem exists_filterMap {α β : Type} [DecidableEq α] (p : α → Bool) (l : List α) (hl : l.Nodup) (ds : List β)
    (h : ds.length = (l.filter p).length) : ∃ f : α → Option β, (∀ a ∈ l, (f a).isSome = p a) ∧ l.filterMap f = ds := by
  induction l generalizing ds with
  | nil => exact ⟨fun _ => none, nofun, (List.length_eq_zero_iff.1 h).symm⟩
  | cons a l ih =>
    obtain ⟨ha, hl⟩ := List.nodup_cons.1 hl
    have hextend (x : Option β) (hx : x.isSome = p a) (f : α → Option β) (hf : ∀ b ∈ l, (f b).isSome = p b) :
        ∃ g : α → Option β, (∀ b ∈ a :: l, (g b).isSome = p b) ∧ (a :: l).filterMap g = x.toList ++ l.filterMap f := by
      have hother : ∀ b ∈ l, (if b = a then x else f b) = f b := fun b hb => if_neg (fun e : b = a => ha (e ▸ hb))
      refine ⟨fun b => if b = a then x else f b, fun b hb => ?_, ?_⟩
      · rcases List.mem_cons.1 hb with rfl | hb
        · simpa using hx
        · simpa only [hother b hb] using hf b hb
      · rw [← List.filterMap_congr hother]
        cases x <;> simp
    cases hp : p a with
    | false =>
      rw [List.filter_cons_of_neg (by rw [hp]; nofun)] at h
      obtain ⟨f, hf, rfl⟩ := ih hl ds h
      exact hextend none hp.symm f hf
    | true =>
      rw [List.filter_cons_of_pos hp] at h
      cases ds with
      | nil => cases h
      | cons d ds =>
        obtain ⟨f, hf, rfl⟩ := ih hl ds (Nat.succ.inj h)
        exact hextend (some d) hp.symm f hf

theorem allAxes_split (k : Axis) : allAxes = allAxes.take (axisIndex k) ++ k :: allAxes.drop (axisIndex k + 1) := by cases k <;> rfl

theorem spreadOffsets_get {α : Type} (m : Byte) (ds : List α) (k : Axis) :
    (spreadOffsets m ds).get k =
      if m.getLsbD (axisIndex k) then ds[((allAxes.take (axisIndex k)).filter (fun q => m.getLsbD (axisIndex q))).length]? else none := by
  cases k <;> rfl

/-- Values that stand at the axes of a mask are the ones spread over it from their list. -/
theorem spreadOffsets_of {α : Type} {m : Byte} (x : Five (Option α)) (h : ∀ k, (x.get k).isSome = m.getLsbD (axisIndex k)) :
    spreadOffsets m (allAxes.filterMap x.get) = x := by
  apply Five.ext_get
  intro k
  rw [spreadOffsets_get]
  split
  case isTrue hk =>
    have hrank := getElem?_filterMap_rank x.get (allAxes.take (axisIndex k)) (allAxes.drop (axisIndex k + 1)) ((h k).trans hk)
    rw [← allAxes_split] at hrank
    simpa only [h] using hrank
  case isFalse hk => exact (Option.isNone_iff_eq_none.1 (by rw [← Option.not_isSome, h]; simpa using hk)).symm

theorem axisCount_eq (m : Byte) : axisCount m = (allAxes.filter (fun k => m.getLsbD (axisIndex k))).length := by
  simp only [allAxes, List.filter_cons, List.filter_nil, axisIndex]
  unfold axisCount
  cases m.getLsbD 0 <;> cases m.getLsbD 1 <;> cases m.getLsbD 2 <;> cases m.getLsbD 3 <;> cases m.getLsbD 4 <;> rfl

/-- The list that fills a mask, spread over it: each named axis has its value. -/
theorem spreadOffsets_spec {α : Type} {m : Byte} {ds : List α} (h : ds.length = axisCount m) :
    allAxes.filterMap (spreadOffsets m ds).get = ds ∧ ∀ k, ((spreadOffsets m ds).get k).isSome = m.getLsbD (axisIndex k) := by
  rw [axisCount_eq] at h
  obtain ⟨f, hf, rfl⟩ := exists_filterMap (fun k => m.getLsbD (axisIndex k)) allAxes nodup_allAxes ds h
  let x : Five (Option α) := ⟨f .swing, f .lift, f .pan, f .tilt, f .roll⟩
  have hx : x.get = f := funext fun k => by cases k <;> rfl
  have hbits (k : Axis) : (x.get k).isSome = m.getLsbD (axisIndex k) := by rw [hx]; exact hf k (mem_allAxes k)
  rw [← hx, spreadOffsets_of x hbits]
  exact ⟨rfl, hbits⟩

/-! ### The entries of a QUEUE_ADD (R71, R72) -/

theorem storedFrames_eq (x : Word) : storedFrames x = if x = 0 then 1 else x.toNat := by
  have hzero : x.toNat = 0 ↔ x = 0 := by bv_omega
  unfold storedFrames
  simp only [hzero]

theorem entryTarget_iff (x : Byte) (t : TargetMode) :
    entryTarget x = some t ↔ x = 1 ∧ t = .stopped ∨ x = 2 ∧ t = .hold ∨ x = 3 ∧ t = .rate ∨ x = 4 ∧ t = .follow := by
  have hcode (n : Nat) (hn : n < 256) : x.toNat = n ↔ x = BitVec.ofNat 8 n := by
    constructor
    · rintro rfl; simp
    · rintro rfl; simp [Nat.mod_eq_of_lt hn]
  have h1 := hcode 1 (by omega); have h2 := hcode 2 (by omega); have h3 := hcode 3 (by omega); have h4 := hcode 4 (by omega)
  unfold entryTarget
  split <;> simp_all [eq_comm]

theorem numbered_getElem? (first : Half) {xs : List (Byte × EntryBody)} {i : Nat} {x : Byte × EntryBody} (h : xs[i]? = some x) :
    (numbered first xs)[i]? = some ⟨first + BitVec.ofNat 16 i, x.1, x.2⟩ := by
  unfold numbered
  rw [List.getElem?_map, List.getElem?_zipIdx, h, Nat.zero_add]
  rfl

theorem enqueue_eq {s : State} {xs : List (Byte × EntryBody)} (h : xs ≠ []) :
    s.enqueue xs =
      { s with
        ms :=
          { s.ms with
            queue := s.ms.queue ++ numbered s.ms.nextSerial xs
            nextSerial := s.ms.nextSerial + BitVec.ofNat 16 xs.length
            phase := if s.ms.queue = [] then .pending else s.ms.phase } } := by
  have hne : (s.ms.queue ++ numbered s.ms.nextSerial xs).isEmpty = false := by
    cases xs with
    | nil => exact absurd rfl h
    | cons x xs => cases s.ms.queue <;> rfl
  unfold State.enqueue freshPhase
  dsimp only
  rw [hne]
  cases s.ms.queue <;> rfl

/-- An entry's admission check, by its kind, as section 4.2 states it. -/
def Admits (e : RawEntry) (b : EntryBody) : Prop :=
  match e with
  | .goto _ m slot dn f =>
    m.toNat < 32 ∧ slot.toNat ≤ 63 ∧ dn.toNat ≤ 1048576 ∧
      b = .goto (axisSet m) slot.toNat (storedFrames dn) (shapeOf f) (endModeOf f) (f.getLsbD 2)
  | .shift _ m ds dn f =>
    m.toNat < 32 ∧ dn.toNat ≤ 1048576 ∧
      ∃ deltas : Five (Option Word), b = .shift deltas (storedFrames dn) (shapeOf f) (endModeOf f) (f.getLsbD 2) ∧
        allAxes.filterMap deltas.get = ds ∧ ∀ k, (deltas.get k).isSome = m.getLsbD (axisIndex k)
  | .dwell _ x => x.toNat ≤ 1048576 ∧ b = .dwell (storedFrames x)
  | .wait _ m f x =>
    m ≠ 0 ∧ (f.getLsbD 2 = true → 1 ≤ x.toNat ∧ x.toNat ≤ 1048576) ∧
      b = .wait m (f.getLsbD 0) (f.getLsbD 1) (if f.getLsbD 2 then some x.toNat else none)
  | .cue _ set clear => b = .cue set clear
  | .mode _ m x =>
    m.toNat < 32 ∧
      (x = 1 ∧ b = .mode (axisSet m) .stopped ∨ x = 2 ∧ b = .mode (axisSet m) .hold ∨
        x = 3 ∧ b = .mode (axisSet m) .rate ∨ x = 4 ∧ b = .mode (axisSet m) .follow)

theorem ite_some_eq_some {α : Type} {p : Prop} [Decidable p] {x y : α} :
    (if p then some x else none) = some y ↔ p ∧ y = x := by
  split <;> simp_all [eq_comm]

theorem admitBody_iff {e : RawEntry} (h : e.wf = true) (b : EntryBody) : admitBody e = some b ↔ Admits e b := by
  have hframes (x : Word) : decide (x.toNat ≤ maxFrames) = true ↔ x.toNat ≤ 1048576 := decide_eq_true_iff
  cases e with
  | goto tag m slot dn f =>
    have hslot : slot.toNat < 64 ↔ slot.toNat ≤ 63 := Nat.lt_succ_iff
    simp only [admitBody, Admits, ite_some_eq_some, Bool.and_eq_true, maskInFive_iff, hframes, decide_eq_true_eq, hslot, and_assoc]
  | shift tag m ds dn f =>
    have hlen : ds.length = axisCount m := by simpa [RawEntry.wf] using h
    simp only [admitBody, Admits, ite_some_eq_some, Bool.and_eq_true, maskInFive_iff, hframes, and_assoc]
    refine and_congr_right fun _ => and_congr_right fun _ => ⟨?_, ?_⟩
    · rintro rfl
      exact ⟨_, rfl, spreadOffsets_spec hlen⟩
    · rintro ⟨deltas, rfl, rfl, hbits⟩
      rw [spreadOffsets_of deltas hbits]
  | dwell tag x =>
    exact ite_some_eq_some
  | wait tag m f x =>
    have htime : (!f.getLsbD 2 || (decide (1 ≤ x.toNat) && decide (x.toNat ≤ maxFrames))) = true ↔
        (f.getLsbD 2 = true → 1 ≤ x.toNat ∧ x.toNat ≤ 1048576) := by
      rw [Bool.or_eq_true, Bool.and_eq_true, hframes, decide_eq_true_iff, Bool.not_eq_true', ← Bool.not_eq_true, imp_iff_not_or]
    simp only [admitBody, Admits, ite_some_eq_some, Bool.and_eq_true, htime, bne_iff_ne, and_assoc]
  | cue tag set clear => simp only [admitBody, Admits, Option.some.injEq, eq_comm]
  | mode tag m x =>
    have hcode : (∃ t, entryTarget x = some t ∧ EntryBody.mode (axisSet m) t = b) ↔
        (x = 1 ∧ b = .mode (axisSet m) .stopped ∨ x = 2 ∧ b = .mode (axisSet m) .hold ∨
          x = 3 ∧ b = .mode (axisSet m) .rate ∨ x = 4 ∧ b = .mode (axisSet m) .follow) := by
      simp only [entryTarget_iff]
      constructor
      · rintro ⟨t, ⟨hx, rfl⟩ | ⟨hx, rfl⟩ | ⟨hx, rfl⟩ | ⟨hx, rfl⟩, rfl⟩ <;> simp [hx]
      · rintro (⟨hx, rfl⟩ | ⟨hx, rfl⟩ | ⟨hx, rfl⟩ | ⟨hx, rfl⟩) <;> simp [hx]
    unfold admitBody Admits
    dsimp only
    rw [← hcode]
    split
    case isTrue hm => simp [(maskInFive_iff m).1 hm, Option.map_eq_some_iff]
    case isFalse hm =>
      have hlt : ¬m.toNat < 32 := fun e => hm ((maskInFive_iff m).2 e)
      simp [hlt]

/-- An entry as the list of a QUEUE_ADD admits it: with its tag. -/
def admitEntry (e : RawEntry) : Option (Byte × EntryBody) := (admitBody e).map (fun b => (rawEntryTag e, b))

theorem admitEntry_iff {e : RawEntry} (h : e.wf = true) (x : Byte × EntryBody) :
    admitEntry e = some x ↔ x.1 = rawEntryTag e ∧ Admits e x.2 := by
  obtain ⟨tag, b⟩ := x
  rw [← admitBody_iff h]
  unfold admitEntry
  rw [Option.map_eq_some_iff]
  constructor
  · rintro ⟨c, hc, he⟩
    cases he
    exact ⟨rfl, hc⟩
  · rintro ⟨rfl, hb⟩
    exact ⟨b, hb, rfl⟩

theorem serveQueueAdd_none (s : State) {es : List RawEntry} (h : es.mapM admitEntry = none) :
    serveQueueAdd s es = refused s .range := by
  unfold serveQueueAdd
  rw [show admitted es = none from h]

theorem serveQueueAdd_some (s : State) {es : List RawEntry} {xs : List (Byte × EntryBody)} (h : es.mapM admitEntry = some xs) :
    serveQueueAdd s es =
      if es = [] ∨ 8 < es.length then refused s .range
      else if 32 < s.ms.queue.length + es.length then refused s .full
      else ⟨(s.enqueue xs).settle [], .ok, halfBytes s.ms.nextSerial ++ [byteOf es.length]⟩ := by
  have hlen := length_mapM h
  have hempty : xs.isEmpty = true ↔ es = [] := by
    rw [List.isEmpty_iff, ← List.length_eq_zero_iff, hlen, List.length_eq_zero_iff]
  unfold serveQueueAdd
  rw [show admitted es = some xs from h]
  simp only [hempty, hlen]

/-- Settles O41: the list's checks by its entries', and the entries appended as numbered. -/
theorem queueAddAdmitsWhole : Obligations.QueueAddAdmitsWhole := by
  intro tag es s h hw a n stored shape endMode admits fits
  have hstored : stored = storedFrames := funext fun x => (storedFrames_eq x).symm
  have hadmits : admits = Admits := by
    funext e b
    cases e <;> simp only [admits, hstored] <;> rfl
  have hentries : es.length < 256 ∧ ∀ e ∈ es, e.wf = true := by
    unfold Request.wf at hw
    rw [Bool.and_eq_true] at hw
    simpa [List.all_eq_true] using (show (decide (es.length < 256) && es.all RawEntry.wf) = true from hw.2)
  have hfits : fits ↔ n ≠ 0 ∧ n ≤ 8 ∧ ∃ xs, es.mapM admitEntry = some xs := by
    refine and_congr_right fun _ => and_congr_right fun _ => ?_
    rw [hadmits]
    constructor
    · refine fun hall => exists_mapM fun e he => ?_
      obtain ⟨b, hb⟩ := hall e he
      exact ⟨(rawEntryTag e, b), (admitEntry_iff (hentries.2 e he) _).2 ⟨rfl, hb⟩⟩
    · rintro ⟨xs, hxs⟩ e he
      obtain ⟨i, hi⟩ := List.getElem?_of_mem he
      obtain ⟨x, hx, -⟩ := mapM_getElem? hxs hi
      exact ⟨x.2, ((admitEntry_iff (hentries.2 e he) x).1 hx).2⟩
  have hempty : es = [] ↔ n = 0 := List.length_eq_zero_iff.symm
  refine ⟨fun hf => ?_, fun hf hfull => ?_, fun hf hroom => ?_⟩
  · cases hm : es.mapM admitEntry with
    | none => exact exec_served (r := .queueAdd es) h (serveQueueAdd_none _ hm) (hw := hw)
    | some xs =>
      have hbad : es = [] ∨ 8 < es.length := by
        by_contra hgood
        obtain ⟨hne, hle⟩ := not_or.1 hgood
        exact hf (hfits.2 ⟨fun e => hne (hempty.2 e), Nat.not_lt.1 hle, xs, hm⟩)
      exact exec_served (r := .queueAdd es) h ((serveQueueAdd_some _ hm).trans (if_pos hbad)) (hw := hw)
  · obtain ⟨hne, hle, xs, hm⟩ := hfits.1 hf
    have hgood : ¬(es = [] ∨ 8 < es.length) := not_or.2 ⟨fun e => hne (hempty.1 e), Nat.not_lt.2 hle⟩
    exact exec_served (r := .queueAdd es) h ((serveQueueAdd_some _ hm).trans ((if_neg hgood).trans (if_pos hfull))) (hw := hw)
  · obtain ⟨hne, hle, xs, hm⟩ := hfits.1 hf
    have hgood : ¬(es = [] ∨ 8 < es.length) := not_or.2 ⟨fun e => hne (hempty.1 e), Nat.not_lt.2 hle⟩
    have hlen : xs.length = n := length_mapM hm
    have hxs : xs ≠ [] := fun e => hne (by rw [← hlen, e]; rfl)
    have hserved := (serveQueueAdd_some a hm).trans ((if_neg hgood).trans (if_neg (Nat.not_lt.2 hroom)))
    have hqueued : a.enqueue xs = _ := enqueue_eq hxs
    rw [hlen] at hqueued
    refine ⟨numbered s.ms.nextSerial xs, a.enqueue xs, (length_numbered _ _).trans hlen, fun i e he => ?_, hqueued, ?_, fun hp => ?_⟩
    · obtain ⟨x, hx, hxi⟩ := mapM_getElem? hm he
      obtain ⟨htag, hbody⟩ := (admitEntry_iff (hentries.2 e (List.mem_of_getElem? he)) x).1 hx
      refine ⟨x.2, by rw [hadmits]; exact hbody, ?_⟩
      rw [numbered_getElem? _ hxi, htag]
    · exact exec_served (r := .queueAdd es) h hserved (hw := hw)
    · exact settle_atRest (h.1.arrived.of_headStep (headStep_none_of_no_progress hp) {})

end Sys2Proof.Machine
end

section
/-! PROOFS. ALERT_CFG and ALERT_CANCEL: the records by their sources, the last one standing. -/

namespace Sys2Proof.Machine

/-! ### Sources by number (R139) -/

theorem nodup_allSources : allSources.Nodup := by decide

theorem sourceOfNumber_sourceNumber (src : Source) : sourceOfNumber (sourceNumber src) = some src := by
  cases src with
  | feedbackStale k => cases k <;> rfl
  | pinned k => cases k <;> rfl
  | saturated k => cases k <;> rfl
  | driveFault k => cases k <;> rfl
  | _ => rfl

theorem sourceNumber_lt (src : Source) : sourceNumber src < allSources.length :=
  (List.getElem?_eq_some_iff.1 (sourceOfNumber_sourceNumber src)).1

theorem sourceOfNumber_iff (n : Nat) (src : Source) : sourceOfNumber n = some src ↔ n = sourceNumber src := by
  constructor
  · intro h
    exact (List.getElem?_inj (List.getElem?_eq_some_iff.1 h).1 nodup_allSources).1 (h.trans (sourceOfNumber_sourceNumber src).symm)
  · rintro rfl
    exact sourceOfNumber_sourceNumber src

theorem sourceNumber_inj {a b : Source} (h : sourceNumber a = sourceNumber b) : a = b :=
  Option.some.inj (((sourceOfNumber_iff _ _).2 rfl).symm.trans ((sourceOfNumber_iff _ _).2 h))

/-! ### A configuration record (R142) -/

/-- The checks of a configuration record, as section 8.2 states them. -/
def GoodConfig (r : CfgRecord) : Prop :=
  r.source.toNat ≤ 25 ∧ (r.level = 1 ∨ r.level = 2) ∧ r.enable.toNat ≤ 1 ∧ r.kind.toNat ≤ 1 ∧
    ¬(r.kind = 0 ∧ ∃ src, isEvent src = true ∧ sourceNumber src = r.source.toNat)

/-- What a record that passes its checks says of a source. -/
structure ConfigOf (r : CfgRecord) (c : SourceConfig) : Prop where
  source : r.source.toNat = sourceNumber c.source
  level : c.level = if r.level = 1 then .one else .two
  enable : c.enable = decide (r.enable = 1)
  latched : c.latched = decide (r.kind = 1)
  event : isEvent c.source = true → c.latched = true

theorem configOf_eq {r : CfgRecord} {src : Source} (h : r.source.toNat = sourceNumber src) :
    configOf r =
      if (r.level = 1 ∨ r.level = 2) ∧ r.enable.toNat ≤ 1 ∧ r.kind.toNat ≤ 1 ∧ ¬(isEvent src = true ∧ r.kind = 0) then
        some ⟨src, if r.level = 1 then .one else .two, r.enable = 1, r.kind = 1⟩
      else none := by
  unfold configOf
  rw [(sourceOfNumber_iff _ _).2 h]

theorem configOf_none {r : CfgRecord} (h : 25 < r.source.toNat) : configOf r = none := by
  have hnone : sourceOfNumber r.source.toNat = none := List.getElem?_eq_none h
  unfold configOf
  rw [hnone]

theorem exists_source {n : Nat} (h : n ≤ 25) : ∃ src, n = sourceNumber src := by
  have hlt : n < allSources.length := Nat.lt_succ_of_le h
  exact ⟨allSources[n], (sourceOfNumber_iff _ _).1 (List.getElem?_eq_getElem hlt)⟩

theorem configOf_some {r : CfgRecord} {c : SourceConfig} (h : configOf r = some c) : ConfigOf r c := by
  have hle : r.source.toNat ≤ 25 := Nat.not_lt.1 (fun hlt => by rw [configOf_none hlt] at h; cases h)
  obtain ⟨src, hsrc⟩ := exists_source hle
  rw [configOf_eq hsrc, ite_some_eq_some] at h
  obtain ⟨⟨-, -, hkind, hevent⟩, rfl⟩ := h
  refine ⟨hsrc, rfl, rfl, rfl, fun he => ?_⟩
  have hne : r.kind ≠ 0 := fun e => hevent ⟨he, e⟩
  exact decide_eq_true (show r.kind = 1 by bv_omega)

theorem goodConfig_iff (r : CfgRecord) : GoodConfig r ↔ ∃ c, configOf r = some c := by
  constructor
  · rintro ⟨hsource, hlevel, henable, hkind, hevent⟩
    obtain ⟨src, hsrc⟩ := exists_source hsource
    exact ⟨_, (configOf_eq hsrc).trans (if_pos ⟨hlevel, henable, hkind, fun e => hevent ⟨e.2, src, e.1, hsrc.symm⟩⟩)⟩
  · rintro ⟨c, h⟩
    have hle : r.source.toNat ≤ 25 := Nat.not_lt.1 (fun hlt => by rw [configOf_none hlt] at h; cases h)
    obtain ⟨src, hsrc⟩ := exists_source hle
    rw [configOf_eq hsrc, ite_some_eq_some] at h
    obtain ⟨⟨hlevel, henable, hkind, hevent⟩, -⟩ := h
    refine ⟨hle, hlevel, henable, hkind, ?_⟩
    rintro ⟨hk, q, hq, hn⟩
    obtain rfl := sourceNumber_inj (hn.trans hsrc)
    exact hevent ⟨hq, hk⟩

/-! ### Records written in list order -/

/-- A source's state under a configuration record. -/
def configured (x : SourceState) (c : SourceConfig) : SourceState :=
  { x with level := c.level, enable := c.enable, latched := c.latched || isEvent c.source }

theorem get_writeConfig (x : Sources SourceState) (c : SourceConfig) (src : Source) :
    (writeConfig x c).get src = if src = c.source then configured (x.get src) c else x.get src := by
  unfold writeConfig
  rw [Sources.get_set]
  split
  case isTrue h => subst h; rfl
  case isFalse h => rfl

/-- A source takes the last of the records that name it. -/
theorem get_writeConfigs (cs : List SourceConfig) (x : Sources SourceState) (src : Source) :
    (cs.foldl writeConfig x).get src =
      ((cs.filter (fun c => c.source = src)).getLast?.map (configured (x.get src))).getD (x.get src) := by
  induction cs using List.reverseRecOn with
  | nil => rfl
  | append_singleton cs c ih =>
    rw [List.foldl_append, List.foldl_cons, List.foldl_nil, get_writeConfig, List.filter_append]
    by_cases h : c.source = src
    · have hlast : [c].filter (fun c => decide (c.source = src)) = [c] := by simp [h]
      rw [hlast, List.getLast?_concat, if_pos h.symm, ih]
      cases (cs.filter (fun c => decide (c.source = src))).getLast? <;> rfl
    · have hnone : [c].filter (fun c => decide (c.source = src)) = [] := by simp [h]
      rw [hnone, List.append_nil, if_neg (fun e => h e.symm), ih]

theorem source_configure (s : State) (cs : List SourceConfig) (src : Source) :
    (s.configure cs).source src =
      rekeyed s.alc.sources src
        (((cs.filter (fun c => c.source = src)).getLast?.map (configured (s.source src))).getD (s.source src)) := by
  unfold State.configure State.source
  dsimp only
  rw [Sources.get_mapSource, get_writeConfigs]

theorem getLast?_forall₂ {α β : Type} {R : α → β → Prop} {l : List α} {xs : List β} (h : List.Forall₂ R l xs) :
    (l.getLast? = none ∧ xs.getLast? = none) ∨ ∃ a x, l.getLast? = some a ∧ xs.getLast? = some x ∧ R a x := by
  rw [List.getLast?_eq_head?_reverse, List.getLast?_eq_head?_reverse]
  have hrev := List.forall₂_reverse_iff.2 h
  generalize l.reverse = l, xs.reverse = xs at hrev ⊢
  cases hrev with
  | nil => exact .inl ⟨rfl, rfl⟩
  | cons hr _ => exact .inr ⟨_, _, rfl, rfl, hr⟩

/-! ### The requests (R142, R156) -/

theorem wf_alertCfg {rs : List CfgRecord} (h : rs.length < 256) : (Request.alertCfg rs).wf = true := by
  have hsize : (rs.flatMap CfgRecord.bytes).length = 4 * rs.length := by
    simp [List.length_flatMap, CfgRecord.bytes, Nat.mul_comm]
  unfold Request.wf
  simp only [Request.payload, List.length_cons, hsize, Bool.and_eq_true, decide_eq_true_eq]
  omega

theorem serveAlertCfg_none (s : State) {rs : List CfgRecord} (h : rs.mapM configOf = none) :
    serveAlertCfg s rs = refused s .range := by
  unfold serveAlertCfg
  rw [h]

theorem serveAlertCfg_some (s : State) {rs : List CfgRecord} {cs : List SourceConfig} (h : rs.mapM configOf = some cs) :
    serveAlertCfg s rs =
      if rs = [] ∨ 26 < rs.length then refused s .range else done ((s.configure cs).settle []) := by
  have hlen := length_mapM h
  have hempty : cs.isEmpty = true ↔ rs = [] := by
    rw [List.isEmpty_iff, ← List.length_eq_zero_iff, hlen, List.length_eq_zero_iff]
  unfold serveAlertCfg
  rw [h]
  simp only [hempty, hlen]

/-- A configuration record that a source takes. -/
theorem rekeyed_configured {r : CfgRecord} {c : SourceConfig} (h : ConfigOf r c) (old : Sources SourceState) :
    rekeyed old c.source (configured (old.get c.source) c) =
      { old.get c.source with
        level := if r.level = 1 then .one else .two
        enable := decide (r.enable = 1)
        latched := decide (r.kind = 1)
        pending :=
          if (old.get c.source).latched && !decide (r.kind = 1) then (old.get c.source).truth else (old.get c.source).pending } := by
  have hlatched : (c.latched || isEvent c.source) = decide (r.kind = 1) := by
    rw [← h.latched]
    cases he : isEvent c.source with
    | false => exact Bool.or_false _
    | true => rw [h.event he]; rfl
  unfold rekeyed configured
  dsimp only
  rw [hlatched, ← h.level, ← h.enable]
  split <;> rfl

theorem rekeyed_same (old : Sources SourceState) (src : Source) : rekeyed old src (old.get src) = old.get src := by
  unfold rekeyed
  rw [Bool.and_not_self, if_neg (by nofun)]

/-- Settles O46: the records checked whole; each source takes its last one. -/
theorem alertConfigurationAndCancel : Obligations.AlertConfigurationAndCancel := by
  intro tag rs mask s h hlen a good fits
  have hfits : fits ↔ rs ≠ [] ∧ rs.length ≤ 26 ∧ ∃ cs, rs.mapM configOf = some cs := by
    refine and_congr_right fun _ => and_congr_right fun _ => ⟨fun hall => ?_, ?_⟩
    · exact exists_mapM fun r hr => (goodConfig_iff r).1 (hall r hr)
    · rintro ⟨cs, hcs⟩ r hr
      obtain ⟨i, hi⟩ := List.getElem?_of_mem hr
      obtain ⟨c, hc, -⟩ := mapM_getElem? hcs hi
      exact (goodConfig_iff r).2 ⟨c, hc⟩
  refine ⟨fun hf => ?_, fun hf => ?_, fun hmask => ?_, fun hmask => ?_⟩
  · cases hm : rs.mapM configOf with
    | none => exact exec_served (r := .alertCfg rs) h (serveAlertCfg_none _ hm) (hw := wf_alertCfg hlen)
    | some cs =>
      have hbad : rs = [] ∨ 26 < rs.length := by
        by_contra hgood
        obtain ⟨hne, hle⟩ := not_or.1 hgood
        exact hf (hfits.2 ⟨hne, Nat.not_lt.1 hle, cs, hm⟩)
      exact exec_served (r := .alertCfg rs) h ((serveAlertCfg_some _ hm).trans (if_pos hbad)) (hw := wf_alertCfg hlen)
  · obtain ⟨hne, hle, cs, hm⟩ := hfits.1 hf
    have hserved := (serveAlertCfg_some a hm).trans (if_neg (not_or.2 ⟨hne, Nat.not_lt.2 hle⟩))
    refine ⟨a.configure cs, exec_served (r := .alertCfg rs) h hserved (hw := wf_alertCfg hlen), rfl, fun src => ?_⟩
    have hrelated : List.Forall₂ ConfigOf rs cs := ((mapM_eq_some_iff _ _ _).1 hm).imp fun _ _ => configOf_some
    have hnamed := List.rel_filter (R := ConfigOf) (p := fun r => r.source.toNat = sourceNumber src)
      (q := fun c => decide (c.source = src)) (fun r c hrc => ?_) hrelated
    · have hsource : (a.configure cs).source src = _ := source_configure a cs src
      rcases getLast?_forall₂ hnamed with ⟨hr, hc⟩ | ⟨r, c, hr, hc, hrc⟩
      · rw [hc] at hsource
        dsimp only
        rw [hr]
        exact hsource.trans (rekeyed_same _ _)
      · obtain rfl : c.source = src := by simpa using List.of_mem_filter (List.mem_of_getLast? hc)
        rw [hc] at hsource
        dsimp only
        rw [hr]
        exact hsource.trans (rekeyed_configured hrc _)
    · simp only [decide_eq_true_eq]
      rw [hrc.source]
      exact ⟨sourceNumber_inj, congrArg sourceNumber⟩
  · exact exec_served (r := .alertCancel mask) h (if_neg (Nat.not_lt.2 hmask))
  · refine ⟨a.cancel mask, exec_served (r := .alertCancel mask) h (if_pos hmask), rfl, fun src => ?_⟩
    have hsource : (a.cancel mask).source src = _ := Sources.get_mapSource _ _ src
    rw [hsource, show a.alc.sources.get src = s.source src from rfl]
    cases mask.getLsbD (sourceNumber src) && (s.source src).latched with
    | true => rw [if_pos rfl, Bool.not_true, Bool.and_false]
    | false => rw [if_neg (by nofun), Bool.not_false, Bool.and_true]

end Sys2Proof.Machine
end

section
/-! PROOFS. A settling move by move, without its bound on the moves. CUE and the changes of the cue flags. -/

namespace Sys2Proof.Machine

/-! ### A settling by its moves -/

/-- The moves towards rest, as many as there are. -/
def State.toRest (s : State) (w : Waiting) : State := settleLoop (settleWork w s) w s

/-- More moves than there are left change nothing. -/
theorem settleLoop_enough {n : Nat} {w : Waiting} {s : State} (hj : Judged s) (hn : settleWork w s ≤ n) :
    settleLoop n w s = s.toRest w := by
  have hmore (m n : Nat) (v : Waiting) (t : State) (ht : Judged t) (hm : settleWork v t ≤ m) (hn : settleWork v t ≤ n) :
      settleLoop m v t = settleLoop n v t := by
    induction m generalizing n v t with
    | zero =>
      have hnone : settleStep v t = none := Option.eq_none_iff_forall_ne_some.2 fun p hp => by
        have := settleWork_step (w' := p.1) (t := p.2) ht hp
        omega
      cases n with
      | zero => rfl
      | succ n => unfold settleLoop; rw [hnone]
    | succ m ih =>
      cases hs : settleStep v t with
      | none =>
        cases n with
        | zero => unfold settleLoop; rw [hs]
        | succ n => unfold settleLoop; rw [hs]
      | some p =>
        have hless := settleWork_step (w' := p.1) (t := p.2) ht hs
        cases n with
        | zero => omega
        | succ n =>
          unfold settleLoop
          rw [hs]
          exact ih n _ _ (judged_judge _) (by omega) (by omega)
  exact hmore n _ w s hj hn (le_refl _)

/-- One move, and the truths judged after it. -/
theorem toRest_step {w w' : Waiting} {s t : State} (hj : Judged s) (h : settleStep w s = some (w', t)) :
    s.toRest w = t.judge.1.toRest (w'.judged t.judge) := by
  have hless := settleWork_step hj h
  obtain ⟨n, hn⟩ : ∃ n, settleWork w s = n + 1 := ⟨settleWork w s - 1, by omega⟩
  unfold State.toRest
  rw [hn, settleLoop, h]
  exact settleLoop_enough (judged_judge _) (Nat.lt_succ_iff.1 (lt_of_lt_of_eq hless hn))

/-- One move that leaves the truths as they are. -/
theorem toRest_quiet {w w' : Waiting} {s t : State} (hj : Judged s) (h : settleStep w s = some (w', t)) (ht : Judged t) :
    s.toRest w = t.toRest ⟨stillDues t w'.own, stillDues t w'.due⟩ := by
  rw [toRest_step hj h, judge_atRest ht.1 ht.2]
  rfl

theorem toRest_none {w : Waiting} {s : State} (h : settleStep w s = none) : s.toRest w = s := by
  unfold State.toRest
  cases settleWork w s with
  | zero => rfl
  | succ n => rw [settleLoop, h]

theorem toRest_atRest {s : State} (h : AtRest s) : s.toRest ⟨[], []⟩ = s :=
  toRest_none ((settleStep_none_iff _ _).2 ⟨h.2.2.1, rfl, rfl, h.2.2.2⟩)

theorem settle_eq (s : State) {due : List Due} (h : due.length ≤ 27) :
    s.settle due = s.judge.1.toRest ⟨[], stillDues s.judge.1 (s.judge.2.map Due.condition ++ due)⟩ := by
  refine settleLoop_enough (judged_judge s) ?_
  have hwait : (stillDues s.judge.1 (s.judge.2.map Due.condition ++ due)).length ≤ 26 + 27 := by
    refine (List.length_filter_le _ _).trans ?_
    rw [List.length_append, List.length_map]
    have hrise : s.judge.2.length ≤ 26 := length_risings_le _
    omega
  have htakings : takings s.judge.1 ≤ 2 := by
    unfold takings
    have h1 := Bool.toNat_le (!s.judge.1.alc.inService1)
    have h2 := Bool.toNat_le (!s.judge.1.alc.inService2)
    omega
  have hmoves : headMoves s.judge.1 ≤ 2 * s.ms.queue.length := by rw [headMoves_judge]; exact Nat.sub_le _ _
  unfold settleWork settleFuel
  simp only [List.length_nil, Nat.zero_add]
  omega

/-- A settling with an event raised, of a part whose truths are judged. -/
theorem settle_raised {s : State} (hj : Judged s) (src : Source) (p : Half) :
    s.settle [.raised src p] = s.toRest ⟨[], [.raised src p]⟩ := by
  rw [settle_eq s (by simp), judge_atRest hj.1 hj.2]
  rfl

theorem settle_judged {s : State} (hj : Judged s) : s.settle [] = s.toRest ⟨[], []⟩ := by
  rw [settle_eq s (by simp), judge_atRest hj.1 hj.2]
  rfl

/-! ### Changes of the cue flags (R94, R95) -/

theorem changeCues_same_flags (s : State) : s.changeCues s.ms.cues = s := if_pos rfl

theorem writeCues_self (s : State) : s.writeCues s.ms.cues = s := rfl

/-- A change of the flags that no WAIT sees. -/
theorem changeCues_of_headStep {s : State} {c : Byte} (h : (s.writeCues c).headStep = none) : s.changeCues c = s.writeCues c := by
  unfold State.changeCues
  split
  case isTrue hc => rw [hc, writeCues_self]
  case isFalse => exact testWait_of_headStep h

theorem changeCues_not_waiting {s : State} (h : ∀ n, s.ms.phase ≠ .waitingCue n) (c : Byte) : s.changeCues c = s.writeCues c := by
  unfold State.changeCues
  split
  case isTrue hc => rw [hc, writeCues_self]
  case isFalse =>
    unfold State.testWait
    split
    · next n hn => exact absurd hn (h n)
    · rfl

/-- No WAIT at the head, or no progress: a change of the flags is the flags' alone. -/
theorem changeCues_alone {s : State} (h : (∀ n, s.ms.phase ≠ .waitingCue n) ∨ progress s = false) (c : Byte) :
    s.changeCues c = s.writeCues c :=
  h.elim (fun hw => changeCues_not_waiting hw c) (fun hp => changeCues_of_no_progress hp c)

theorem AtRest.writeCues {s : State} (h : AtRest s) (hw : (∀ n, s.ms.phase ≠ .waitingCue n) ∨ progress s = false) (c : Byte) :
    AtRest (s.writeCues c) := by
  refine h.of_headStep ?_ {}
  have hhead := (headStep_none_iff s).1 h.2.2.2
  refine (headStep_none_iff _).2 fun hp e rest hq => ?_
  obtain ⟨hpending, -, hseg⟩ := hhead hp e rest hq
  refine ⟨hpending, fun left mask any consume timeout hph hb => ?_, hseg⟩
  rcases hw with hw | hw
  · exact absurd hph (hw left)
  · rw [show progress s = true from hp] at hw
    cases hw

theorem wf_cue {clear set : Byte} {pairs : List CuePair} (h : pairs.length < 256) : (Request.cue clear set pairs).wf = true := by
  have hsize : (pairs.flatMap CuePair.bytes).length = 3 * pairs.length := by
    simp [List.length_flatMap, CuePair.bytes, Nat.mul_comm]
  unfold Request.wf
  simp only [Request.payload, List.length_append, List.length_cons, List.length_nil, hsize, Bool.and_eq_true, decide_eq_true_eq]
  omega

theorem cuePairOk_iff (p : CuePair) : cuePairOk p = true ↔ p.cue.toNat < 8 ∧ selectorOf p.code p.param ≠ none := by
  unfold cuePairOk
  rw [Bool.and_eq_true, decide_eq_true_iff, Option.isSome_iff_ne_none]

/-- A PENDING head begins before a source of the event becomes pending. -/
theorem settle_pendingFirst {s u : State} (hj : Judged s) (hp : s.ms.phase = .pending) (hh : s.headStep = some u)
    (ha : s.arbitrate = none) (hu : Judged u) (src : Source) (p : Half) :
    s.settle [.raised src p] = u.settle [.raised src p] := by
  rw [settle_raised hj, settle_raised hu, toRest_quiet hj (settleStep_of_run ha hp hh) hu]
  rfl

/-- Settles O44: the request's own rule; a change of the flags by the head that sees it. -/
theorem cueWritesTableAndFlags : Obligations.CueWritesTableAndFlags := by
  refine ⟨fun tag clear set pairs s h hlen => ?_, fun s c => ⟨?_, ?_, fun n hc hn => ⟨fun hh => ?_, fun u hu => ?_⟩⟩, ?_⟩
  · intro a fits table t u
    have hfits : fits ↔ pairs.length ≤ 8 ∧ pairs.all cuePairOk = true := by
      simp only [fits, List.all_eq_true, cuePairOk_iff]
    refine ⟨fun hf => ?_, fun hf => ?_, fun hw => ?_⟩
    · exact exec_served (r := .cue clear set pairs) h (if_neg (fun e => hf (hfits.2 e))) (hw := wf_cue hlen)
    · have hserved : serveRule s.arrived (.cue clear set pairs) = ⟨u.settle [], .ok, cueRecord (u.settle [])⟩ :=
        if_pos (hfits.1 hf)
      exact exec_served h hserved (hw := wf_cue hlen)
    · have hrest : AtRest t := h.1.arrived.same {} {}
      have hwt : (∀ n, t.ms.phase ≠ .waitingCue n) ∨ progress t = false := hw
      have hu : u = t.writeCues ((s.ms.cues &&& ~~~clear) ||| set) := changeCues_alone hwt _
      rw [hu]
      exact settle_atRest (hrest.writeCues hwt _)
  · rintro rfl
    exact changeCues_same_flags s
  · exact fun hw => changeCues_alone hw c
  · exact changeCues_of_headStep hh
  · have htest : (s.writeCues c).testWait = u := by
      unfold State.testWait
      rw [show (s.writeCues c).ms.phase = _ from hn, show (s.writeCues c).headStep = _ from hu]
      rfl
    exact (if_neg hc).trans htest
  · exact fun s u src param hp hh hj ha hu => settle_pendingFirst hj hp hh ha hu src param

end Sys2Proof.Machine
end

section
/-! PROOFS. SWEEP and SWEEP_STOP; the sweep's counting and the evaluation of its residuals. -/

namespace Sys2Proof.Machine

/-! ### The good set (R112) -/

theorem mem_goodSet (w : Sweep) (d : Nat) :
    d ∈ goodSet w ↔ w.dlo ≤ d ∧ d ≤ w.dhi ∧ (w.results.getD d 0).toNat ≤ w.q.toNat := by
  unfold goodSet
  rw [List.mem_filter, List.mem_range, Nat.lt_succ_iff, Bool.and_eq_true, decide_eq_true_iff, decide_eq_true_iff]
  exact and_left_comm

theorem goodSet_rising (w : Sweep) : (goodSet w).Pairwise (· < ·) := List.pairwise_lt_range.filter _

/-- The ends of a list that rises. -/
theorem rising_ends {first : Nat} {rest : List Nat} (h : (first :: rest).Pairwise (· < ·)) {lo hi : Nat} (hlo : lo ∈ first :: rest)
    (hhi : hi ∈ first :: rest) (hall : ∀ d ∈ first :: rest, lo ≤ d ∧ d ≤ hi) :
    first = lo ∧ (first :: rest).getLastD first = hi := by
  constructor
  · have hle := (hall first (List.mem_cons_self ..)).1
    rcases List.mem_cons.1 hlo with rfl | hmem
    · rfl
    · have := List.rel_of_pairwise_cons h hmem
      omega
  · have hlast : (first :: rest).getLastD first = (first :: rest).getLast (List.cons_ne_nil _ _) := by
      rw [List.getLastD_eq_getLast?, List.getLast?_eq_getLast_of_ne_nil (List.cons_ne_nil _ _)]
      rfl
    rw [hlast]
    refine le_antisymm (hall _ (List.getLast_mem _)).2 ?_
    obtain hmem | rfl : hi ∈ (first :: rest).dropLast ∨ hi = (first :: rest).getLast (List.cons_ne_nil _ _) := by
      have hsplit := List.dropLast_append_getLast (List.cons_ne_nil first rest)
      rw [← hsplit] at hhi
      simpa using hhi
    · have hsplit := List.dropLast_append_getLast (List.cons_ne_nil first rest)
      rw [← hsplit, List.pairwise_append] at h
      exact (h.2.2 hi hmem _ (List.mem_singleton_self _)).le
    · exact le_refl _

/-- A rising list fills its bounds exactly when its length says so. -/
theorem rising_full {l : List Nat} (h : l.Pairwise (· < ·)) {lo hi : Nat} (hle : lo ≤ hi) (hall : ∀ d ∈ l, lo ≤ d ∧ d ≤ hi) :
    l.length = hi - lo + 1 ↔ ∀ d, lo ≤ d → d ≤ hi → d ∈ l := by
  have hnodup : l.Nodup := h.imp (fun hlt => Nat.ne_of_lt hlt)
  have hsub : l.toFinset ⊆ Finset.Icc lo hi := fun d hd => Finset.mem_Icc.2 (hall d (List.mem_toFinset.1 hd))
  have hcard : (Finset.Icc lo hi).card = hi - lo + 1 := by rw [Nat.card_Icc]; omega
  rw [← List.toFinset_card_of_nodup hnodup, ← hcard]
  constructor
  · intro he d h1 h2
    rw [← List.mem_toFinset, Finset.eq_of_subset_of_card_le hsub he.ge]
    exact Finset.mem_Icc.2 ⟨h1, h2⟩
  · intro hfull
    congr 1
    refine Finset.Subset.antisymm hsub fun d hd => ?_
    obtain ⟨h1, h2⟩ := Finset.mem_Icc.1 hd
    exact List.mem_toFinset.2 (hfull d h1 h2)

/-! ### The evaluation (R112) -/

theorem evaluateSweep_none {s : State} (h : ∀ d, d ∉ goodSet s.sw) :
    s.evaluateSweep = (s.setActiveD s.sw.axis s.sw.savedD).endSweep .noWindow s.sw.savedD none none := by
  unfold State.evaluateSweep
  rw [List.eq_nil_iff_forall_not_mem.2 h]

theorem evaluateSweep_some {s : State} {lo hi : Nat} (hlo : lo ∈ goodSet s.sw) (hhi : hi ∈ goodSet s.sw)
    (hall : ∀ d ∈ goodSet s.sw, lo ≤ d ∧ d ≤ hi) :
    ((∀ d, lo ≤ d → d ≤ hi → d ∈ goodSet s.sw) →
      s.evaluateSweep = ((s.setActiveD s.sw.axis ((lo + hi) / 2)).setStagedD s.sw.axis ((lo + hi) / 2)).endSweep .done
        ((lo + hi) / 2) (some lo) (some hi)) ∧
    (¬(∀ d, lo ≤ d → d ≤ hi → d ∈ goodSet s.sw) →
      s.evaluateSweep = ((s.setActiveD s.sw.axis ((lo + hi) / 2)).setStagedD s.sw.axis ((lo + hi) / 2)).endSweep .doneGapped
        ((lo + hi) / 2) (some lo) (some hi)) := by
  have hrising := goodSet_rising s.sw
  unfold State.evaluateSweep
  cases hg : goodSet s.sw with
  | nil => rw [hg] at hlo; cases hlo
  | cons first rest =>
    rw [hg] at hlo hhi hall hrising
    obtain ⟨rfl, hlast⟩ := rising_ends hrising hlo hhi hall
    have hfull := rising_full hrising (hall hi hhi).1 hall
    rw [List.length_cons] at hfull
    dsimp only
    rw [hlast]
    exact ⟨fun h => by rw [if_pos (hfull.2 h)], fun h => by rw [if_neg (fun e => h (hfull.1 e))]⟩

theorem setStagedD_setActiveD (s : State) (k : Axis) (d : Nat) :
    (s.setActiveD k d).setStagedD k d =
      s.setAxis k { s.axis k with active := { (s.axis k).active with d := d }, staged := { (s.axis k).staged with d := d } } := by
  unfold State.setStagedD State.setActiveD
  rw [State.axis_setAxis_same, setAxis_setAxis]

/-! ### A counted computation (R110, R111) -/

/-- The sweep with one more counted computation. -/
def Sweep.counted (w : Sweep) (g : Int) : Sweep := { w with sum := min (w.sum + g.natAbs) 4294967295, count := w.count + 1 }

/-- The sweep with the window of current D recorded. -/
def Sweep.recorded (w : Sweep) : Sweep := { w with results := w.results.set w.currentD (wordOfNat w.sum) }

theorem countSweep_below {s : State} {g : Int} (h : s.sw.count + 1 < s.sw.wn) :
    s.countSweep g = { s with sw := s.sw.counted g } := if_neg (Nat.not_le.2 h)

theorem countSweep_stepped {s : State} {g : Int} (h : s.sw.wn ≤ s.sw.count + 1) (hd : s.sw.currentD < s.sw.dhi) :
    s.countSweep g =
      { s.setActiveD s.sw.axis (s.sw.currentD + 1) with
        sw := { (s.sw.counted g).recorded with currentD := s.sw.currentD + 1, count := 0, sum := 0 } } :=
  (if_pos h).trans (if_pos hd)

theorem countSweep_evaluated {s : State} {g : Int} (h : s.sw.wn ≤ s.sw.count + 1) (hd : s.sw.dhi ≤ s.sw.currentD) :
    s.countSweep g = State.evaluateSweep { s with sw := (s.sw.counted g).recorded } :=
  (if_pos h).trans (if_neg (Nat.not_lt.2 hd))

/-- What a sweep's end leaves of the sweep. -/
theorem endSweep_sw (s : State) (o : SweepOutcome) (d : Nat) (a b : Option Nat) :
    (s.endSweep o d a b).sw = { s.sw with running := false, last := ⟨o, s.sw.axis, d, a, b, s.le.frameNo⟩ } :=
  State.offerUnasked_sw _ _

/-- The evaluation reads the sweep and the frame number alone. -/
theorem evaluateSweep_sw {s t : State} (hsw : t.sw = s.sw) (hle : t.le = s.le) : t.evaluateSweep.sw = s.evaluateSweep.sw := by
  unfold State.evaluateSweep
  rw [hsw]
  cases goodSet s.sw with
  | nil =>
    dsimp only
    rw [endSweep_sw, endSweep_sw]
    simp only [State.setActiveD, State.setAxis_sw, State.setAxis_le, hsw, hle]
  | cons first rest =>
    dsimp only
    rw [endSweep_sw, endSweep_sw]
    simp only [State.setActiveD, State.setStagedD, State.setAxis_sw, State.setAxis_le, hsw, hle]

theorem countSweep_sw {s t : State} (hsw : t.sw = s.sw) (hle : t.le = s.le) (g : Int) : (t.countSweep g).sw = (s.countSweep g).sw := by
  rcases Nat.lt_or_ge (s.sw.count + 1) s.sw.wn with h | h
  · rw [countSweep_below h, countSweep_below (by rw [hsw]; exact h), hsw]
  · rcases Nat.lt_or_ge s.sw.currentD s.sw.dhi with hd | hd
    · rw [countSweep_stepped h hd, countSweep_stepped (by rw [hsw]; exact h) (by rw [hsw]; exact hd), hsw]
    · rw [countSweep_evaluated h hd, countSweep_evaluated (by rw [hsw]; exact h) (by rw [hsw]; exact hd)]
      exact evaluateSweep_sw (by rw [hsw]) hle

/-! ### What the estimation writes of an axis record -/

theorem jointStep_axis (s : State) (k : Axis) :
    (s.jointStep k).axis k =
      { s.axis k with j := ((s.jointStep k).axis k).j, lastEncoder := ((s.jointStep k).axis k).lastEncoder } := by
  cases h : (s.si.enc.get k).newPos with
  | false => rw [jointStep_old h]
  | true => rw [jointStep_new h, State.axis_setAxis_same]

theorem estimate_axis (s : State) (k : Axis) (n : Nat) :
    (s.estimate k n).axis k =
      { s.axis k with
        j := ((s.estimate k n).axis k).j
        lastEncoder := ((s.estimate k n).axis k).lastEncoder
        w := ((s.estimate k n).axis k).w
        f := ((s.estimate k n).axis k).f
        coastCount := ((s.estimate k n).axis k).coastCount } := by
  have hheaded (t : State) (w : Word) : headed t k w = { t.axis k with w := (headed t k w).w, f := (headed t k w).f } := rfl
  have hleveled (t : State) (w : Word) :
      leveled t k w = { t.axis k with w := (leveled t k w).w, coastCount := (leveled t k w).coastCount } := by
    unfold leveled
    dsimp only
    split <;> [split; split] <;> rfl
  rw [estimate_axis_same]
  split
  · rw [hheaded, jointStep_axis]
  · rw [hleveled, jointStep_axis]

theorem gyroTerm_of {s t : State} {k : Axis} (hsen : t.si.sen = s.si.sen) (hactive : (t.axis k).active = (s.axis k).active) :
    gyroTerm t k = gyroTerm s k := by
  unfold gyroTerm
  rw [hsen, hactive]

theorem gyroTerm_estimate (s : State) (k : Axis) (n : Nat) : gyroTerm (s.estimate k n) k = gyroTerm s k :=
  gyroTerm_of (by rw [estimate_si, jointStep_sen]) (by rw [estimate_axis])

/-! ### A computation with the kill settled and no launch -/

/-- Nothing is left to settle of the kill (R132). -/
def killSettled (s : State) (k : Axis) : Prop :=
  (s.axis k).killPhase = .clear ∨ s.killAsserted = true ∧ (s.axis k).killPhase ≠ .awaiting

theorem settleKill_settled {s : State} {k : Axis} (h : killSettled s k) : s.settleKill k = s := by
  have hawaiting : s.settleAwaiting k = s := if_neg (fun e => by rcases h with h | ⟨-, h⟩ <;> simp_all)
  unfold State.settleKill
  rw [hawaiting]
  refine if_pos ?_
  rw [Bool.or_eq_true, decide_eq_true_iff]
  exact h.elim .inr (fun h => .inl h.1)

theorem discardLaunch_none {s : State} {k : Axis} (h : (s.axis k).launch = none) : s.discardLaunch k = s := by
  unfold State.discardLaunch
  rw [h]

theorem installLaunch_none {s : State} {k : Axis} (h : (s.axis k).launch = none) : s.installLaunch k = s := by
  unfold State.installLaunch
  rw [h]

theorem launched_none {s : State} {k : Axis} (hk : killSettled s k) (h : (s.axis k).launch = none) : s.launched k = s := by
  unfold State.launched
  dsimp only
  rw [settleKill_settled hk, discardLaunch_none h, installLaunch_none h, ite_self]

/-- The computation is then its work from the swap on. -/
theorem computeAxis_settled {s : State} {k : Axis} (hk : killSettled s k) (h : (s.axis k).launch = none) (n : Nat) :
    s.computeAxis k n = s.swapAndWork k n (heldByPause s k) := by
  rw [computeAxis_eq, launched_none hk h, settleKill_settled hk]

theorem swapCheck_sweeping {s : State} {k : Axis} (h : sweeping s k = true) : s.swapCheck k = s := by
  unfold State.swapCheck
  dsimp only
  rw [h, Bool.not_true, Bool.and_false]
  exact if_neg (by nofun)

theorem swapCheck_sw (s : State) (k : Axis) : (s.swapCheck k).sw = s.sw := by
  unfold State.swapCheck
  dsimp only
  split <;> rfl

/-- What the sweep becomes of a computation's work. -/
theorem finished_sw (s : State) (k : Axis) (n : Nat) (held : Bool) :
    (s.finished k n held).sw = if counts s k n held then (s.countSweep (gyroTerm s k)).sw else s.sw := by
  unfold State.finished
  dsimp only
  split
  · rw [gyroTerm_estimate]
    exact countSweep_sw (t := ((s.worked k n held).handCommand k (estimatedWork s k n held).command).1) (worked_sw s k n held)
      (worked_le s k n held) _
  · exact worked_sw s k n held

theorem counts_eq (s : State) (k : Axis) (n : Nat) (held : Bool) :
    counts s k n held =
      (sweeping s k && decide ((s.axis k).mode = .hold) && (s.si.sen.get (feedbackUnit k)).fresh && !held) := by
  unfold counts sweeping
  rw [estimate_sw, estimate_si, jointStep_sen]

theorem sweep_computeAxis {s : State} {k : Axis} (hk : killSettled s k) (h : (s.axis k).launch = none) (n : Nat) :
    (s.computeAxis k n).1.sw =
      if s.sw.running = true ∧ s.sw.axis = k ∧ (s.axis k).mode = .hold ∧ (s.axis k).killPhase ≠ .paused ∧
          (s.si.sen.get (feedbackUnit k)).fresh = true then
        (s.countSweep (gyroTerm s k)).sw
      else s.sw := by
  rw [computeAxis_settled hk h]
  change ((s.swapCheck k).judge.1.finished k n (heldByPause s k)).sw = _
  rw [finished_sw]
  cases hs : sweeping s k with
  | false =>
    have hsw : (s.swapCheck k).judge.1.sw = s.sw := by rw [judge_eq]; exact swapCheck_sw s k
    have hnot : sweeping (s.swapCheck k).judge.1 k = false := by unfold sweeping; rw [hsw]; exact hs
    have hstill : ¬(s.sw.running = true ∧ s.sw.axis = k ∧ (s.axis k).mode = .hold ∧ (s.axis k).killPhase ≠ .paused ∧
        (s.si.sen.get (feedbackUnit k)).fresh = true) := by
      rintro ⟨hrun, haxis, -⟩
      rw [sweeping, hrun, haxis, decide_eq_true rfl] at hs
      cases hs
    rw [counts_eq, hnot, if_neg hstill]
    exact hsw
  | true =>
    have hheld (hm : (s.axis k).mode = .hold) : heldByPause s k = false ↔ (s.axis k).killPhase ≠ .paused := by
      unfold heldByPause
      rcases hk with hc | ⟨ha, -⟩
      · simp [hc]
      · simp [ha, hm, isHoldable]
    have hcounts : counts s.judge.1 k n (heldByPause s k) = true ↔ s.sw.running = true ∧ s.sw.axis = k ∧ (s.axis k).mode = .hold ∧
        (s.axis k).killPhase ≠ .paused ∧ (s.si.sen.get (feedbackUnit k)).fresh = true := by
      obtain ⟨hrun, haxis⟩ := running_of_sweeping hs
      have hsame : sweeping s.judge.1 k = true := by rw [judge_eq]; exact hs
      have hmode : (s.judge.1.axis k).mode = (s.axis k).mode := by rw [judge_eq]; rfl
      have hsen : s.judge.1.si = s.si := (judge_same s).1
      rw [counts_eq, hsame, hmode, hsen]
      simp only [Bool.true_and, Bool.and_eq_true, decide_eq_true_eq, Bool.not_eq_true', hrun, haxis, true_and]
      constructor
      · rintro ⟨⟨hm, hf⟩, hh⟩
        exact ⟨hm, (hheld hm).1 hh, hf⟩
      · rintro ⟨hm, hp, hf⟩
        exact ⟨⟨hm, hf⟩, (hheld hm).2 hp⟩
    have hg : gyroTerm s.judge.1 k = gyroTerm s k := by rw [judge_eq]; rfl
    rw [swapCheck_sweeping hs]
    simp only [hcounts, hg]
    rw [countSweep_sw (s := s) (by rw [judge_eq]) (by rw [judge_eq]), judge_eq]

/-! ### The requests (R109, R114) -/

theorem exists_axis {x : Byte} (h : x.toNat ≤ 4) : ∃ k, x = byteOf (axisIndex k) := by
  have hx : x = byteOf x.toNat := by simp [byteOf]
  rw [hx]
  generalize x.toNat = n at h
  match n, h with
  | 0, _ => exact ⟨.swing, rfl⟩
  | 1, _ => exact ⟨.lift, rfl⟩
  | 2, _ => exact ⟨.pan, rfl⟩
  | 3, _ => exact ⟨.tilt, rfl⟩
  | 4, _ => exact ⟨.roll, rfl⟩

theorem serveSweep_none (s : State) {axis : Byte} (h : 4 < axis.toNat) (dlo dhi : Byte) (wn : Half) (q : Word) :
    serveSweep s axis dlo dhi wn q = refused s .range := by
  unfold serveSweep
  rw [axisOfIndex_above h]

theorem serveSweep_axis (s : State) (k : Axis) (dlo dhi : Byte) (wn : Half) (q : Word) :
    serveSweep s (byteOf (axisIndex k)) dlo dhi wn q =
      if 63 < dhi.toNat ∨ dhi.toNat < dlo.toNat ∨ wn.toNat < 256 ∨ 8192 < wn.toNat then refused s .range
      else if s.sw.running then refused s .busy
      else if (s.axis k).mode ≠ .hold then refused s .state
      else ⟨s.startSweep k dlo.toNat dhi.toNat wn.toNat q, .accepted, []⟩ := by
  unfold serveSweep
  rw [axisOfIndex_byteOf]

/-- Settles O45: the requests' checks, the computation's count, and the end of a window. -/
theorem sweepStartsAndStops : Obligations.SweepStartsAndStops := by
  refine ⟨fun tag axis dlo dhi wn q s h => ?_, fun s k n hk hl => sweep_computeAxis hk hl n, fun s g hrun => ?_⟩
  · intro a request fits
    have hgood (hf : fits) : ¬(63 < dhi.toNat ∨ dhi.toNat < dlo.toNat ∨ wn.toNat < 256 ∨ 8192 < wn.toNat) := by
      obtain ⟨-, h1, h2, h3, h4⟩ := hf
      omega
    have hidle (hr : s.sw.running = false) : ¬a.sw.running = true := by rw [show a.sw.running = _ from hr]; nofun
    refine ⟨fun hf => ?_, fun hf hr => ?_, fun hf hr k hax => ⟨fun hm => ?_, fun hm => ?_⟩, fun hr => ?_, fun hr => ?_⟩
    · rcases Nat.lt_or_ge 4 axis.toNat with hx | hx
      · exact exec_served (r := .sweep axis dlo dhi wn q) h (serveSweep_none _ hx ..)
      · obtain ⟨k, rfl⟩ := exists_axis hx
        have hbad : 63 < dhi.toNat ∨ dhi.toNat < dlo.toNat ∨ wn.toNat < 256 ∨ 8192 < wn.toNat := by
          by_contra hgood
          exact hf ⟨hx, by omega, by omega, by omega, by omega⟩
        exact exec_served (r := .sweep _ dlo dhi wn q) h ((serveSweep_axis ..).trans (if_pos hbad))
    · obtain ⟨k, rfl⟩ := exists_axis hf.1
      exact exec_served (r := .sweep _ dlo dhi wn q) h ((serveSweep_axis ..).trans ((if_neg (hgood hf)).trans (if_pos hr)))
    · subst hax
      exact exec_served (r := .sweep _ dlo dhi wn q) h
        ((serveSweep_axis ..).trans ((if_neg (hgood hf)).trans ((if_neg (hidle hr)).trans (if_pos hm))))
    · subst hax
      exact exec_served (r := .sweep _ dlo dhi wn q) h
        ((serveSweep_axis ..).trans ((if_neg (hgood hf)).trans ((if_neg (hidle hr)).trans (if_neg (not_not.2 hm)))))
    · exact exec_served (r := .sweepStop) h (if_neg (hidle hr))
    · exact exec_served (r := .sweepStop) h (if_pos hr)
  · intro w k x sum results good ended
    refine ⟨fun hn => countSweep_below hn, fun hn => ⟨fun hd => countSweep_stepped hn hd, fun hd => ⟨fun hg => ?_, ?_⟩⟩⟩
    · rw [countSweep_evaluated hn hd, evaluateSweep_none (fun d hd => hg d ((mem_goodSet _ d).1 hd))]
      rfl
    · intro lo hi hlo hhi hall mid y
      obtain ⟨hdone, hgapped⟩ := evaluateSweep_some (s := { s with sw := (s.sw.counted g).recorded }) ((mem_goodSet _ lo).2 hlo)
        ((mem_goodSet _ hi).2 hhi) (fun d hd => hall d ((mem_goodSet _ d).1 hd))
      rw [setStagedD_setActiveD] at hdone hgapped
      refine ⟨fun hfull => ?_, fun hgap => ?_⟩
      · exact (countSweep_evaluated hn hd).trans (hdone (fun d h1 h2 => (mem_goodSet _ d).2 (hfull d h1 h2)))
      · exact (countSweep_evaluated hn hd).trans (hgapped (fun e => hgap (fun d h1 h2 => (mem_goodSet _ d).1 (e d h1 h2))))

end Sys2Proof.Machine
end

section
/-! PROOFS. Axes that leave their motion in one pass: their records, the reports to the head, a sweep that ends. The transitions of
MODE. -/

namespace Sys2Proof.Machine

/-! ### One axis leaves its motion -/

/-- The axis record written, its motion reported as aborted, and the sweep on it ended if `e`. -/
def State.leaves (s : State) (k : Axis) (y : AxisRec) (e : Bool) : State :=
  if e then (s.leaveMotion k y (heldSerials (s.axis k))).sweepAborted k else s.leaveMotion k y (heldSerials (s.axis k))

/-- The D that a sweep running on the axis has saved. -/
def savedFor (s : State) (k : Axis) : Option Nat := if sweeping s k then some s.sw.savedD else none

/-- An axis record with D put back. -/
def withD (x : AxisRec) : Option Nat → AxisRec
  | some d => { x with active := { x.active with d := d } }
  | none => x

theorem withSavedD_eq (s : State) (k : Axis) (x : AxisRec) : withSavedD s k x = withD x (savedFor s k) := by
  unfold withSavedD savedFor
  split <;> rfl

/-- An axis that makes a transition, with the D that a sweep on it has saved (R23 to R26, R113). -/
def movedTo (target : TargetMode) (x : AxisRec) (saved : Option Nat) : AxisRec :=
  transitioned { (if x.mode = .hold then withD x saved else x) with segment := none, launch := none } target

theorem makeTransition_eq (s : State) (k : Axis) (target : TargetMode) :
    s.makeTransition k target = s.leaves k (movedTo target (s.axis k) (savedFor s k)) (decide ((s.axis k).mode = .hold)) := by
  have hmode : ((s.leaveMotion k { s.axis k with segment := none, launch := none } (heldSerials (s.axis k))).axis k).mode =
      (s.axis k).mode := by rw [leaveMotion_axis_same]
  unfold State.makeTransition State.leaves movedTo
  dsimp only
  rw [abortMotion_eq, hmode]
  by_cases h : (s.axis k).mode = .hold
  · rw [if_pos h, if_pos h, decide_eq_true h, if_pos rfl, leaveHold_eq, sweepAborted_setAxis, sweepAborted_axis, setAxis_setAxis,
      leaveMotion_setAxis, State.axis_setAxis_same, leaveMotion_axis_same, withSavedD_eq]
    unfold savedFor
    rw [sweeping_leaveMotion]
    cases sweeping s k <;> rfl
  · rw [if_neg h, if_neg h, decide_eq_false h, if_neg (by nofun), leaveMotion_setAxis, leaveMotion_axis_same]

theorem enterSafe_eq (s : State) (k : Axis) :
    s.enterSafe k =
      if isActive (s.axis k).mode then
        s.leaves k
          { withD (s.axis k) (savedFor s k) with mode := .safe, jlock := (s.axis k).j, segment := none, launch := none } true
      else s := by
  cases h : isActive (s.axis k).mode with
  | true => rw [enterSafe_active h, withSavedD_eq]; rfl
  | false => rw [enterSafe_inactive h]; rfl

section
variable (s : State) (k : Axis) (y : AxisRec) (e : Bool)

@[simp] theorem leaves_axis_same : (s.leaves k y e).axis k = y := by
  unfold State.leaves
  split
  · rw [sweepAborted_axis, leaveMotion_axis_same]
  · exact leaveMotion_axis_same _ _ _ _

theorem leaves_axis_other {j : Axis} (h : j ≠ k) : (s.leaves k y e).axis j = s.axis j := by
  unfold State.leaves
  split
  · rw [sweepAborted_axis, leaveMotion_axis_other _ _ _ _ h]
  · exact leaveMotion_axis_other _ _ _ _ h

theorem leaves_ms : (s.leaves k y e).ms = { s.ms with phase := abortedPhase s.ms k (heldSerials (s.axis k)) } := by
  unfold State.leaves
  split
  · rw [sweepAborted_ms, leaveMotion_ms]
  · exact leaveMotion_ms _ _ _ _

theorem leaves_eq :
    s.leaves k y e =
      { s with axes := s.axes.set k y, ms := (s.leaves k y e).ms, sw := (s.leaves k y e).sw, cl := (s.leaves k y e).cl } := by
  unfold State.leaves State.sweepAborted
  split <;> [split; skip] <;> rfl

theorem leaves_still (h : (sweeping s k && e) = false) : (s.leaves k y e).sw = s.sw ∧ (s.leaves k y e).cl = s.cl := by
  unfold State.leaves State.sweepAborted
  rw [sweeping_leaveMotion]
  cases e with
  | false => exact ⟨rfl, rfl⟩
  | true =>
    rw [Bool.and_true] at h
    rw [h]
    exact ⟨rfl, rfl⟩

/-- The sweep of a state that has ended ABORTED on an axis. -/
def endedSweep (s : State) (k : Axis) : Sweep :=
  { s.sw with running := false, last := ⟨.aborted, k, s.sw.savedD, none, none, s.le.frameNo⟩ }

/-- The console after the notice of that end. -/
def endedConsole (s : State) (k : Axis) : Console :=
  s.cl.offer ⟨0x49, 0, wordBytes s.le.frameNo ++ [1, byteOf (axisIndex k), 4, byteOf s.sw.savedD]⟩

theorem leaves_ended (h : (sweeping s k && e) = true) :
    (s.leaves k y e).sw = endedSweep s k ∧ (s.leaves k y e).cl = endedConsole s k := by
  obtain ⟨hs, rfl⟩ := (Bool.and_eq_true _ _).mp h
  unfold State.leaves State.sweepAborted
  rw [sweeping_leaveMotion, hs]
  exact ⟨rfl, rfl⟩

end

/-! ### The head's outstanding set (R79) -/

/-- A report for an axis that is not outstanding, or of another serial, changes nothing. -/
theorem abortedPhase_waiting {m : Sequencer} {e : Entry} {rest : List Entry} {out : AxisSet} {ab : Bool} (hq : m.queue = e :: rest)
    (hp : m.phase = .waitingSegments out ab) (k : Axis) (ns : List Half) :
    abortedPhase m k ns =
      if hasAxis out k && decide (e.serial ∈ ns) then .waitingSegments (out &&& ~~~(axisSetOf (fun q => q = k))) true
      else .waitingSegments out ab := by
  have hgone (x : AxisSet) : hasAxis (x &&& ~~~(axisSetOf (fun q => q = k))) k = false := by
    have hk : hasAxis (axisSetOf (fun q => decide (q = k))) k = true := by rw [hasAxis_axisSetOf]; exact decide_eq_true rfl
    unfold hasAxis at hk ⊢
    rw [BitVec.getLsbD_and, BitVec.getLsbD_not, hk, Bool.not_true, Bool.and_false, Bool.and_false]
  induction ns generalizing m out ab with
  | nil => rw [show decide (e.serial ∈ ([] : List Half)) = false from rfl, Bool.and_false]; exact hp
  | cons n ns ih =>
    have hstep : reportedPhase m k n true =
        if e.serial = n ∧ hasAxis out k = true then .waitingSegments (out &&& ~~~(axisSetOf (fun q => q = k))) true
        else .waitingSegments out ab := by
      unfold reportedPhase
      rw [hq, hp]
      dsimp only
      rw [Bool.or_true]
    unfold abortedPhase
    by_cases hn : e.serial = n ∧ hasAxis out k = true
    · rw [if_pos hn] at hstep
      have hmem : (hasAxis out k && decide (e.serial ∈ n :: ns)) = true := by rw [hn.2, hn.1]; simp
      rw [ih (m := { m with phase := reportedPhase m k n true }) hq hstep, hgone, Bool.false_and, if_pos hmem, if_neg (by nofun)]
    · rw [if_neg hn] at hstep
      have hmem : (hasAxis out k && decide (e.serial ∈ n :: ns)) = (hasAxis out k && decide (e.serial ∈ ns)) := by
        cases ho : hasAxis out k with
        | false => rfl
        | true =>
          have hne : e.serial ≠ n := fun he => hn ⟨he, ho⟩
          simp [hne]
      rw [ih (m := { m with phase := reportedPhase m k n true }) hq hstep, hmem]

theorem abortedPhase_other {m : Sequencer} (h : m.queue = [] ∨ ∀ out ab, m.phase ≠ .waitingSegments out ab) (k : Axis)
    (ns : List Half) : abortedPhase m k ns = m.phase := by
  have hstep (n : Half) : reportedPhase m k n true = m.phase := by
    unfold reportedPhase
    split
    · next e rest out ab hq hp =>
      rcases h with h | h
      · rw [h] at hq; cases hq
      · exact absurd hp (h out ab)
    · rfl
  induction ns with
  | nil => rfl
  | cons n ns ih =>
    unfold abortedPhase
    rw [hstep]
    exact ih

theorem mem_heldSerials (a : AxisRec) (n : Half) :
    n ∈ heldSerials a ↔ a.segment.map Segment.serial = some n ∨ a.launch.map Segment.serial = some n := by
  unfold heldSerials
  rw [List.mem_append, Option.mem_toList, Option.mem_toList]

/-! ### A pass of axes that leave their motion -/

/-- Which axes act in a pass, what becomes of their records, and which of them end a sweep. -/
structure Pass where
  act : Axis → AxisRec → Bool
  record : Axis → AxisRec → Option Nat → AxisRec
  ends : AxisRec → Bool

/-- One axis's part of a pass. -/
def Pass.step (p : Pass) (s : State) (k : Axis) : State :=
  if p.act k (s.axis k) then s.leaves k (p.record k (s.axis k) (savedFor s k)) (p.ends (s.axis k)) else s

/-- The record that a pass leaves of an axis. -/
def Pass.result (p : Pass) (s : State) (k : Axis) : AxisRec :=
  if p.act k (s.axis k) then p.record k (s.axis k) (savedFor s k) else s.axis k

/-- A pass ends the sweep on an axis. -/
def Pass.endsSweep (p : Pass) (s : State) (k : Axis) : Bool := sweeping s k && (p.act k (s.axis k) && p.ends (s.axis k))

section
variable (p : Pass)

theorem Pass.step_axis_same (s : State) (k : Axis) : (p.step s k).axis k = p.result s k := by
  unfold Pass.step Pass.result
  split
  · exact leaves_axis_same _ _ _ _
  · rfl

theorem Pass.step_axis_other (s : State) {k j : Axis} (h : j ≠ k) : (p.step s k).axis j = s.axis j := by
  unfold Pass.step
  split
  · exact leaves_axis_other _ _ _ _ h
  · rfl

theorem Pass.step_still {s : State} {k : Axis} (h : p.endsSweep s k = false) : (p.step s k).sw = s.sw ∧ (p.step s k).cl = s.cl := by
  unfold Pass.step
  unfold Pass.endsSweep at h
  split
  case isTrue ha => rw [ha, Bool.true_and] at h; exact leaves_still _ _ _ _ h
  case isFalse => exact ⟨rfl, rfl⟩

theorem Pass.step_ended {s : State} {k : Axis} (h : p.endsSweep s k = true) :
    (p.step s k).sw = endedSweep s k ∧ (p.step s k).cl = endedConsole s k := by
  unfold Pass.endsSweep at h
  obtain ⟨hs, hae⟩ := (Bool.and_eq_true _ _).mp h
  obtain ⟨ha, he⟩ := (Bool.and_eq_true _ _).mp hae
  unfold Pass.step
  rw [if_pos ha]
  exact leaves_ended _ _ _ _ (by rw [hs, he]; rfl)

theorem sweeping_other {s : State} {k j : Axis} (h : j ≠ k) (hs : sweeping s k = true) : sweeping s j = false := by
  obtain ⟨-, he⟩ := running_of_sweeping hs
  unfold sweeping
  rw [he, decide_eq_false (fun e => h e.symm), Bool.and_false]

theorem Pass.savedFor_step (s : State) {k j : Axis} (h : j ≠ k) : savedFor (p.step s k) j = savedFor s j := by
  cases he : p.endsSweep s k with
  | false =>
    unfold savedFor sweeping
    rw [(p.step_still he).1]
  | true =>
    have hs : sweeping s k = true := (Bool.and_eq_true _ _).mp he |>.1
    have hj : sweeping (p.step s k) j = false := by
      unfold sweeping
      rw [(p.step_ended he).1]
      rfl
    unfold savedFor
    rw [hj, sweeping_other h hs]
    rfl

theorem Pass.step_ms (s : State) (k : Axis) : (p.step s k).ms = { s.ms with phase := (p.step s k).ms.phase } := by
  unfold Pass.step
  split
  · rw [leaves_ms]
  · rfl

theorem Pass.step_le (s : State) (k : Axis) : (p.step s k).le = s.le := by
  unfold Pass.step
  split
  · rw [leaves_eq]
  · rfl

/-- A pass leaves everything alone but the axes, the head's phase, the sweep and the console. -/
theorem Pass.foldl_eq (l : List Axis) (s : State) :
    l.foldl p.step s =
      { s with
        axes := (l.foldl p.step s).axes
        ms := { s.ms with phase := (l.foldl p.step s).ms.phase }
        sw := (l.foldl p.step s).sw
        cl := (l.foldl p.step s).cl } := by
  refine keeps_foldl (P := fun t =>
    t = { s with axes := t.axes, ms := { s.ms with phase := t.ms.phase }, sw := t.sw, cl := t.cl }) (fun t k ht => ?_) l s rfl
  have hstep : p.step t k =
      { t with
        axes := (p.step t k).axes, ms := { t.ms with phase := (p.step t k).ms.phase }, sw := (p.step t k).sw
        cl := (p.step t k).cl } := by
    rw [← p.step_ms]
    unfold Pass.step
    split
    · rw [leaves_eq]
    · rfl
  rw [hstep, ht]

theorem Pass.foldl_axis (l : List Axis) (hl : l.Nodup) (s : State) (k : Axis) :
    (l.foldl p.step s).axis k = if k ∈ l then p.result s k else s.axis k := by
  obtain ⟨hin, hout⟩ := foldl_ofAxes (f := p.step) (fun t j => (t.axis j, savedFor t j))
    (fun j x y => y.1 = if p.act j x.1 then p.record j x.1 x.2 else x.1)
    (fun t j i hij => Prod.ext (p.step_axis_other t hij) (p.savedFor_step t hij)) (fun t j => p.step_axis_same t j) l hl s k
  split
  case isTrue hk => exact hin hk
  case isFalse hk => exact congrArg Prod.fst (hout hk)

theorem Pass.endsSweep_step (s : State) {k j : Axis} (h : j ≠ k) (hk : p.endsSweep s k = false) :
    p.endsSweep (p.step s k) j = p.endsSweep s j := by
  unfold Pass.endsSweep sweeping
  rw [p.step_axis_other s h, (p.step_still hk).1]

/-- No axis of the pass ends a sweep. -/
theorem Pass.foldl_still (l : List Axis) (hl : l.Nodup) (s : State) (h : ∀ k ∈ l, p.endsSweep s k = false) :
    (l.foldl p.step s).sw = s.sw ∧ (l.foldl p.step s).cl = s.cl := by
  induction l generalizing s with
  | nil => exact ⟨rfl, rfl⟩
  | cons k l ih =>
    obtain ⟨hk, hl⟩ := List.nodup_cons.1 hl
    have hstill := h k (List.mem_cons_self ..)
    obtain ⟨hsw, hcl⟩ := ih hl (p.step s k) fun j hj => by
      rw [p.endsSweep_step s (fun e : j = k => hk (e ▸ hj)) hstill]
      exact h j (List.mem_cons_of_mem _ hj)
    exact ⟨hsw.trans (p.step_still hstill).1, hcl.trans (p.step_still hstill).2⟩

/-- An axis of the pass ends the sweep on it. -/
theorem Pass.foldl_ended (l : List Axis) (hl : l.Nodup) (s : State) {k : Axis} (hk : k ∈ l) (h : p.endsSweep s k = true) :
    (l.foldl p.step s).sw = endedSweep s k ∧ (l.foldl p.step s).cl = endedConsole s k := by
  induction l generalizing s with
  | nil => cases hk
  | cons j l ih =>
    obtain ⟨hj, htail⟩ := List.nodup_cons.1 hl
    rw [List.foldl_cons]
    rcases List.mem_cons.1 hk with rfl | hmem
    · have hover (i : Axis) : p.endsSweep (p.step s k) i = false := by
        unfold Pass.endsSweep sweeping
        rw [(p.step_ended h).1]
        rfl
      obtain ⟨hsw, hcl⟩ := p.foldl_still l htail (p.step s k) fun i _ => hover i
      exact ⟨hsw.trans (p.step_ended h).1, hcl.trans (p.step_ended h).2⟩
    · have hne : k ≠ j := fun e => hj (e ▸ hmem)
      have hs : sweeping s k = true := (Bool.and_eq_true _ _).mp h |>.1
      have hstill : p.endsSweep s j = false := by
        unfold Pass.endsSweep
        rw [sweeping_other hne.symm hs, Bool.false_and]
      obtain ⟨hsw, hcl⟩ := ih htail (p.step s j) hmem (by rw [p.endsSweep_step s hne hstill]; exact h)
      rw [hsw, hcl]
      unfold endedSweep endedConsole
      rw [(p.step_still hstill).1, (p.step_still hstill).2, p.step_le]
      exact ⟨rfl, rfl⟩

theorem Pass.foldl_phase_other (l : List Axis) (s : State)
    (h : s.ms.queue = [] ∨ ∀ out ab, s.ms.phase ≠ .waitingSegments out ab) : (l.foldl p.step s).ms.phase = s.ms.phase := by
  refine (keeps_foldl (P := fun t => t.ms.queue = s.ms.queue ∧ t.ms.phase = s.ms.phase) (fun t k ⟨hq, hp⟩ => ?_) l s ⟨rfl, rfl⟩).2
  rw [p.step_ms]
  refine ⟨hq, ?_⟩
  unfold Pass.step
  split
  · rw [leaves_ms]
    exact (abortedPhase_other (by rw [hq, hp]; exact h) _ _).trans hp
  · exact hp

/-- An axis of the pass carries a segment or a launch of the serial. -/
def Pass.drops (p : Pass) (s : State) (serial : Half) (k : Axis) : Bool :=
  p.act k (s.axis k) &&
    (decide ((s.axis k).segment.map Segment.serial = some serial) || decide ((s.axis k).launch.map Segment.serial = some serial))

theorem axisSet_ext {a b : AxisSet} (h : ∀ k, hasAxis a k = hasAxis b k) : a = b := by
  apply BitVec.eq_of_getLsbD_eq
  intro i hi
  match i, hi with
  | 0, _ => exact h .swing
  | 1, _ => exact h .lift
  | 2, _ => exact h .pan
  | 3, _ => exact h .tilt
  | 4, _ => exact h .roll

theorem hasAxis_without (out : AxisSet) (k j : Axis) :
    hasAxis (out &&& ~~~(axisSetOf (fun q => q = k))) j = (hasAxis out j && !decide (j = k)) := by
  have hk : hasAxis (axisSetOf (fun q => decide (q = k))) j = decide (j = k) := hasAxis_axisSetOf _ j
  unfold hasAxis at hk ⊢
  rw [BitVec.getLsbD_and, BitVec.getLsbD_not, hk, decide_eq_true (axisIndex_lt j), Bool.true_and]

/-- The outstanding set after the axes of a pass: those that carried the head's serial have left it. -/
theorem Pass.foldl_phase (l : List Axis) (hl : l.Nodup) (s : State) {e : Entry} {rest : List Entry} {out : AxisSet} {ab : Bool}
    (hq : s.ms.queue = e :: rest) (hp : s.ms.phase = .waitingSegments out ab) :
    (l.foldl p.step s).ms.phase =
      .waitingSegments (axisSetOf (fun k => hasAxis out k && !(decide (k ∈ l) && p.drops s e.serial k)))
        (ab || l.any (fun k => hasAxis out k && p.drops s e.serial k)) := by
  induction l generalizing s out ab with
  | nil =>
    have hsame : axisSetOf (fun k => hasAxis out k && !(decide (k ∈ ([] : List Axis)) && p.drops s e.serial k)) = out :=
      axisSet_ext fun k => by rw [hasAxis_axisSetOf]; simp
    rw [hsame, List.any_nil, Bool.or_false]
    exact hp
  | cons k l ih =>
    obtain ⟨hk, hl⟩ := List.nodup_cons.1 hl
    have hne {j : Axis} (hj : j ∈ l) : j ≠ k := fun e => hk (e ▸ hj)
    have hdrops {j : Axis} (hj : j ∈ l) : p.drops (p.step s k) e.serial j = p.drops s e.serial j := by
      unfold Pass.drops
      rw [p.step_axis_other s (hne hj)]
    have hstep : (p.step s k).ms.phase =
        if hasAxis out k && p.drops s e.serial k then .waitingSegments (out &&& ~~~(axisSetOf (fun q => q = k))) true
        else .waitingSegments out ab := by
      unfold Pass.step Pass.drops
      cases p.act k (s.axis k) with
      | false => rw [Bool.false_and, Bool.and_false]; exact hp
      | true =>
        rw [if_pos rfl, leaves_ms, Bool.true_and]
        dsimp only
        rw [abortedPhase_waiting hq hp, ← Bool.decide_or]
        simp only [mem_heldSerials]
    have hqueue : (p.step s k).ms.queue = e :: rest := by rw [p.step_ms]; exact hq
    rw [List.foldl_cons, List.any_cons]
    have hany (x : AxisSet) (hx : ∀ j ∈ l, hasAxis x j = hasAxis out j) :
        l.any (fun j => hasAxis x j && p.drops (p.step s k) e.serial j) = l.any (fun j => hasAxis out j && p.drops s e.serial j) := by
      refine Bool.eq_iff_iff.2 ?_
      simp only [List.any_eq_true]
      exact exists_congr fun j => and_congr_right fun hj => by rw [hx j hj, hdrops hj]
    cases hg : hasAxis out k && p.drops s e.serial k with
    | false =>
      rw [hg, if_neg (by nofun)] at hstep
      rw [ih hl (p.step s k) hqueue hstep, hany out (fun _ _ => rfl), Bool.false_or]
      congr 1
      refine axisSet_ext fun j => ?_
      rw [hasAxis_axisSetOf, hasAxis_axisSetOf]
      by_cases hj : j ∈ l
      · simp [hj, hdrops hj]
      · by_cases hjk : j = k
        · subst hjk
          simp only [hj, decide_false, Bool.false_and, Bool.not_false, Bool.and_true, List.mem_cons, true_or, decide_true,
            Bool.true_and]
          cases ho : hasAxis out j <;> simp_all
        · simp [hj, hjk]
    | true =>
      rw [hg, if_pos rfl] at hstep
      rw [ih hl (p.step s k) hqueue hstep, hany _ (fun j hj => by rw [hasAxis_without, decide_eq_false (hne hj)]; simp)]
      simp only [Bool.true_or, Bool.or_true]
      congr 1
      refine axisSet_ext fun j => ?_
      rw [hasAxis_axisSetOf, hasAxis_axisSetOf, hasAxis_without]
      by_cases hj : j ∈ l
      · simp [hj, hdrops hj, hne hj]
      · by_cases hjk : j = k
        · subst hjk
          obtain ⟨-, hd⟩ := (Bool.and_eq_true _ _).mp hg
          simp [hj, hd]
        · simp [hj, hjk]

end

end Sys2Proof.Machine
end

section
/-! PROOFS. MODE: its checks, the transitions it makes and their captures. -/

namespace Sys2Proof.Machine

/-! ### The captures of a transition (R24, R25, R26) -/

theorem ofInt_wrapDiff (a b : Word) : BitVec.ofInt 32 (wrapDiff a b) = a - b := BitVec.ofInt_toInt

theorem transitioned_off (a : AxisRec) : transitioned a .off = { a with mode := .off } := rfl

theorem transitioned_stopped (a : AxisRec) : transitioned a .stopped = { a with mode := .stopped } := rfl

/-- The entry from OFF, STOPPED or SAFE into an active mode. -/
theorem transitioned_entry {a : AxisRec} (h : isActive a.mode = false) {target : TargetMode}
    (ht : target = .hold ∨ target = .rate ∨ target = .follow) :
    transitioned a target =
      { a with
        mode := target.toMode
        t := a.w, i := 0, uPrev := 0, rdEff := 0, rdTarget := 0, satFlag := .none, pinState := .none, satCount := 0
        pinCount := 0, coastCount := 0, o := if target = .follow then a.w - a.f else a.o } := by
  have hno : ¬isActive a.mode = true := by rw [h]; nofun
  rcases ht with rfl | rfl | rfl
  · exact if_neg hno
  · exact if_neg hno
  · refine (if_neg hno).trans ?_
    rw [if_pos rfl, ← ofInt_wrapDiff]
    rfl

/-- The passage between active modes. -/
theorem transitioned_hold {a : AxisRec} (h : isActive a.mode = true) : transitioned a .hold = { a with mode := .hold } := if_pos h

theorem transitioned_rate {a : AxisRec} (h : isActive a.mode = true) :
    transitioned a .rate = { a with mode := .rate, rdEff := 0, rdTarget := 0 } := if_pos h

theorem transitioned_follow {a : AxisRec} (h : isActive a.mode = true) :
    transitioned a .follow = { a with mode := .follow, o := a.t - a.f } := by
  refine (if_pos h).trans ?_
  rw [← ofInt_wrapDiff]
  rfl

theorem movedTo_eq (s : State) (k : Axis) (x : AxisRec) (target : TargetMode) :
    movedTo target x (savedFor s k) =
      transitioned
        { (if sweeping s k && decide (x.mode = .hold) then { x with active := { x.active with d := s.sw.savedD } } else x) with
          segment := none, launch := none } target := by
  unfold movedTo savedFor
  cases sweeping s k with
  | false => simp [withD]
  | true =>
    by_cases hm : x.mode = .hold
    · simp [hm, withD]
    · simp [hm]

/-- Settles O38: the record by the mode left and the target; the sweep by `State.leaves`. -/
theorem modeChangesTakeTheirCaptures : Obligations.ModeChangesTakeTheirCaptures := by
  intro s k target x swept a u b still
  have hu : u = s.leaves k (movedTo target x (savedFor s k)) (decide (x.mode = .hold)) := makeTransition_eq s k target
  have hb : b = transitioned { a with segment := none, launch := none } target := by
    change u.axis k = _
    rw [hu, leaves_axis_same, movedTo_eq]
  refine ⟨?_, fun ha ht => ?_, ?_, ?_, ?_, fun j hj => ?_, fun hs => ?_, fun hs => ?_⟩
  · rintro (rfl | rfl) <;> exact hb
  · exact hb.trans (transitioned_entry (a := { a with segment := none, launch := none }) ha ht)
  · rintro ha rfl
    exact hb.trans (transitioned_hold (a := { a with segment := none, launch := none }) ha)
  · rintro ha rfl
    exact hb.trans (transitioned_rate (a := { a with segment := none, launch := none }) ha)
  · rintro ha rfl
    exact hb.trans (transitioned_follow (a := { a with segment := none, launch := none }) ha)
  · rw [hu, leaves_axis_other _ _ _ _ hj]
  · rw [hu]
    exact (leaves_still _ _ _ _ hs).1
  · rw [hu]
    exact (leaves_ended _ _ _ _ hs).1

/-! ### The pass that a MODE makes (R22, R23) -/

/-- The transitions to a target, on the axes that make it. -/
def modePass (made : Axis → AxisRec → Bool) (target : TargetMode) : Pass where
  act := made
  record _ := movedTo target
  ends x := decide (x.mode = .hold)

theorem modePass_result (made : Axis → AxisRec → Bool) (target : TargetMode) (s : State) (k : Axis) :
    (modePass made target).result s k = if made k (s.axis k) then (s.makeTransition k target).axis k else s.axis k := by
  unfold Pass.result modePass
  rw [makeTransition_eq, leaves_axis_same]

theorem modePass_step {made : Axis → AxisRec → Bool} {target : TargetMode} {s : State} {k : Axis} :
    (modePass made target).step s k = if made k (s.axis k) then s.makeTransition k target else s := by
  unfold Pass.step modePass
  rw [makeTransition_eq]

/-- The table of R23 makes the transition on an axis in the mask. -/
def tableMakes (mask : AxisSet) (target : TargetMode) (k : Axis) (x : AxisRec) : Bool :=
  hasAxis mask k && decide (transition x.mode target = .made)

theorem modePass_table {mask : AxisSet} {target : TargetMode} {s : State} {k : Axis} :
    (modePass (tableMakes mask target) target).step s k = if hasAxis mask k then s.applyTransition k target else s := by
  rw [modePass_step]
  unfold tableMakes State.applyTransition
  cases hasAxis mask k with
  | false => rfl
  | true =>
    cases h : transition (s.axis k).mode target <;> simp

/-- The transitions of a MODE, in one pass over the axes. -/
theorem applyTransitions_eq (mask : AxisSet) (target : TargetMode) (s : State) :
    (axesOf mask).foldl (fun s k => s.applyTransition k target) s = allAxes.foldl (modePass (tableMakes mask target) target).step s := by
  unfold axesOf
  rw [List.foldl_filter]
  congr 1
  funext s k
  exact modePass_table.symm

/-- The table makes a change exactly where it does not refuse and the mode differs. -/
theorem transition_made_iff (m : Mode) (target : TargetMode) :
    transition m target = .made ↔ transition m target ≠ .refused ∧ m ≠ target.toMode := by
  cases m <;> cases target <;> decide

theorem transition_refused_iff (m : Mode) (target : TargetMode) :
    transition m target = .refused ↔ (target = .hold ∨ target = .rate ∨ target = .follow) ∧ (m = .off ∨ m = .safe) := by
  cases m <;> cases target <;> decide

theorem mem_axesOf (m : AxisSet) (k : Axis) : k ∈ axesOf m ↔ hasAxis m k = true := by
  unfold axesOf
  rw [List.mem_filter]
  exact and_iff_right (mem_allAxes k)

theorem transitioned_mode (a : AxisRec) (target : TargetMode) : (transitioned a target).mode = target.toMode := by
  have hpass (m : Mode) : (passBetweenActive a m).mode = m := by
    unfold passBetweenActive
    dsimp only
    split <;> rfl
  have henter (m : Mode) : (enterFromInactive a m).mode = m := by
    unfold enterFromInactive
    dsimp only
    split <;> rfl
  unfold transitioned
  cases target with
  | off => rfl
  | stopped => rfl
  | _ => dsimp only; split <;> [exact hpass _; exact henter _]

/-! ### MODE's fields (R22) -/

/-- The target byte's mode, where it is one. -/
def wantedMode (target : Byte) : TargetMode := match target.toNat with | 0 => .off | 1 => .stopped | 2 => .hold | 3 => .rate | _ => .follow

theorem targetCode_of_le {target : Byte} (h : target.toNat ≤ 4) : targetCode target = some (some (wantedMode target)) := by
  unfold targetCode wantedMode
  match target.toNat, h with
  | 0, _ => rfl
  | 1, _ => rfl
  | 2, _ => rfl
  | 3, _ => rfl
  | 4, _ => rfl

theorem targetCode_none {target : Byte} (h : 4 < target.toNat) (hff : target ≠ 0xFF) : targetCode target = none := by
  have hne : target.toNat ≠ 255 := fun e => hff (by bv_omega)
  unfold targetCode
  split <;> first | omega | rfl

theorem dampCode_none {damp : Byte} (h : 2 < damp.toNat) : dampCode damp = none := by
  unfold dampCode
  split <;> first | omega | rfl

theorem dampCode_of_le {damp : Byte} (h : damp.toNat ≤ 2) :
    dampCode damp = some (if damp = 1 then some true else if damp = 2 then some false else none) := by
  have h012 : damp = 0 ∨ damp = 1 ∨ damp = 2 := by bv_omega
  rcases h012 with rfl | rfl | rfl <;> rfl

/-- A mask names a level axis. -/
theorem namesLevel_iff (mask : Byte) :
    (mask &&& levelAxes != 0) = true ↔ ∃ k, isHeading k = false ∧ mask.getLsbD (axisIndex k) = true := by
  have hlevel (k : Axis) : levelAxes.getLsbD (axisIndex k) = !isHeading k := by cases k <;> rfl
  rw [bne_iff_ne]
  refine ⟨fun h => ?_, fun ⟨k, hk, hbit⟩ h0 => ?_⟩
  · by_contra hnone
    have hbit {k : Axis} (hk : isHeading k = false) : mask.getLsbD (axisIndex k) = false :=
      Bool.not_eq_true _ ▸ fun e => hnone ⟨k, hk, e⟩
    refine h (BitVec.eq_of_getLsbD_eq fun i hi => ?_)
    rw [BitVec.getLsbD_and]
    match i, hi with
    | 1, _ => rw [show mask.getLsbD 1 = false from hbit (k := .lift) rfl]; rfl
    | 3, _ => rw [show mask.getLsbD 3 = false from hbit (k := .tilt) rfl]; rfl
    | 4, _ => rw [show mask.getLsbD 4 = false from hbit (k := .roll) rfl]; rfl
    | 0, _ | 2, _ | 5, _ | 6, _ | 7, _ => exact Bool.and_false _
  · have hand : (mask &&& levelAxes).getLsbD (axisIndex k) = true := by rw [BitVec.getLsbD_and, hbit, hlevel, hk]; rfl
    rw [h0] at hand
    simp at hand

/-- The DAMP action that a MODE's byte names. -/
def wantedDamp (damp : Byte) : Option Bool := if damp = 1 then some true else if damp = 2 then some false else none

/-- The target that a MODE's byte names, if it names one. -/
def wantedTarget (target : Byte) : Option TargetMode := if target = 0xFF then none else some (wantedMode target)

/-- R22's checks of MODE's fields. -/
def goodModeFields (mask target damp : Byte) : Prop :=
  mask ≠ 0 ∧ mask.toNat < 32 ∧ (target.toNat ≤ 4 ∨ target = 0xFF) ∧ damp.toNat ≤ 2 ∧ ¬(target = 0xFF ∧ damp = 0) ∧
    ¬(target = 4 ∧ ∃ k, isHeading k = false ∧ mask.getLsbD (axisIndex k) = true)

theorem targetCode_good {target : Byte} (h : target.toNat ≤ 4 ∨ target = 0xFF) : targetCode target = some (wantedTarget target) := by
  unfold wantedTarget
  rcases h with h | rfl
  · rw [if_neg (by bv_omega), targetCode_of_le h]
  · rfl

theorem wantedTarget_follow_iff {target : Byte} (h : target.toNat ≤ 4 ∨ target = 0xFF) :
    wantedTarget target = some .follow ↔ target = 4 := by
  rcases h with h | rfl
  · have hcases : target = 0 ∨ target = 1 ∨ target = 2 ∨ target = 3 ∨ target = 4 := by bv_omega
    rcases hcases with rfl | rfl | rfl | rfl | rfl <;> decide
  · decide

theorem modeFields_good {mask target damp : Byte} (ht : target.toNat ≤ 4 ∨ target = 0xFF) (hd : damp.toNat ≤ 2) :
    modeFields mask target damp =
      if maskNamesAxes mask && ((wantedTarget target).isSome || (wantedDamp damp).isSome) &&
          !(decide (wantedTarget target = some .follow) && mask &&& levelAxes != 0) then
        some (wantedTarget target, wantedDamp damp)
      else none := by
  unfold modeFields
  rw [targetCode_good ht, dampCode_of_le hd]
  rfl

theorem modeFields_some {mask target damp : Byte} (h : goodModeFields mask target damp) :
    modeFields mask target damp = some (wantedTarget target, wantedDamp damp) := by
  obtain ⟨h0, hlt, ht, hd, hsome, hlevel⟩ := h
  have hsome' : ((wantedTarget target).isSome || (wantedDamp damp).isSome) = true := by
    unfold wantedTarget wantedDamp
    by_cases hff : target = 0xFF
    · have hd12 : damp = 1 ∨ damp = 2 := by
        have hne : damp ≠ 0 := fun e => hsome ⟨hff, e⟩
        bv_omega
      rcases hd12 with rfl | rfl <;> simp
    · rw [if_neg hff]; rfl
  have hlevel' : (decide (wantedTarget target = some .follow) && mask &&& levelAxes != 0) = false := by
    rw [← Bool.not_eq_true, Bool.and_eq_true, decide_eq_true_eq, wantedTarget_follow_iff ht, namesLevel_iff]
    exact hlevel
  rw [modeFields_good ht hd, (maskNamesAxes_iff mask).2 ⟨h0, hlt⟩, hsome', hlevel']
  rfl

theorem modeFields_none {mask target damp : Byte} (h : ¬goodModeFields mask target damp) : modeFields mask target damp = none := by
  by_cases ht : target.toNat ≤ 4 ∨ target = 0xFF
  · by_cases hd : damp.toNat ≤ 2
    · rw [modeFields_good ht hd]
      refine if_neg fun e => h ?_
      obtain ⟨hms, hlevel⟩ := (Bool.and_eq_true _ _).mp e
      obtain ⟨hmask, hsome⟩ := (Bool.and_eq_true _ _).mp hms
      obtain ⟨h0, hlt⟩ := (maskNamesAxes_iff mask).1 hmask
      rw [Bool.not_eq_true', ← Bool.not_eq_true, Bool.and_eq_true, decide_eq_true_eq, wantedTarget_follow_iff ht,
        namesLevel_iff] at hlevel
      refine ⟨h0, hlt, ht, hd, ?_, hlevel⟩
      rintro ⟨rfl, rfl⟩
      exact absurd hsome (by decide)
    · unfold modeFields
      rw [dampCode_none (Nat.lt_of_not_le hd)]
      split <;> first | rfl | contradiction
  · unfold modeFields
    rw [targetCode_none (by omega) (fun e => ht (.inr e))]

/-- The table refuses an axis that the mask names. -/
theorem modeRefused_iff (s : State) (mask : Byte) (t : TargetMode) :
    modeRefused s (axisSet mask) t = true ↔
      ∃ k, mask.getLsbD (axisIndex k) = true ∧ (t = .hold ∨ t = .rate ∨ t = .follow) ∧
        ((s.axis k).mode = .off ∨ (s.axis k).mode = .safe) := by
  unfold modeRefused
  rw [List.any_eq_true]
  refine exists_congr fun k => ?_
  rw [mem_axesOf, hasAxis_axisSet, decide_eq_true_eq, transition_refused_iff]

theorem wantedMode_active_iff {target : Byte} (h : target.toNat ≤ 4) :
    (wantedMode target = .hold ∨ wantedMode target = .rate ∨ wantedMode target = .follow) ↔ 2 ≤ target.toNat := by
  have hcases : target = 0 ∨ target = 1 ∨ target = 2 ∨ target = 3 ∨ target = 4 := by bv_omega
  rcases hcases with rfl | rfl | rfl | rfl | rfl <;> decide

theorem transitioned_damp (a : AxisRec) (target : TargetMode) : (transitioned a target).damp = a.damp := by
  unfold transitioned passBetweenActive enterFromInactive followCapture
  cases target with
  | off => rfl
  | stopped => rfl
  | _ => dsimp only [TargetMode.toMode]; split <;> rfl

theorem makeTransition_damp (s : State) (k : Axis) (target : TargetMode) :
    ((s.makeTransition k target).axis k).damp = (s.axis k).damp := by
  rw [makeTransition_eq, leaves_axis_same, movedTo_eq, transitioned_damp]
  split <;> rfl

theorem makeTransition_mode (s : State) (k : Axis) (target : TargetMode) :
    ((s.makeTransition k target).axis k).mode = target.toMode := by
  rw [makeTransition_eq, leaves_axis_same, movedTo_eq, transitioned_mode]

/-- The axes that a MODE's fields take to another mode. -/
def modeMakes (mask target : Byte) (k : Axis) (x : AxisRec) : Bool :=
  match wantedTarget target with
  | some t => tableMakes (axisSet mask) t k x
  | none => false

theorem foldl_modePass_none (target : TargetMode) (l : List Axis) (s : State) :
    l.foldl (modePass (fun _ _ => false) target).step s = s :=
  keeps_foldl (P := fun t => t = s) (fun _ _ ht => by rw [modePass_step]; exact ht) l s rfl

/-- The axes and what else has moved when a MODE's transitions are done. -/
def State.modeMoved (s : State) (mask target : Byte) : State :=
  allAxes.foldl (modePass (modeMakes mask target) (wantedMode target)).step s

theorem applyMode_eq (s : State) (mask target damp : Byte) :
    s.applyMode (axisSet mask) (wantedTarget target) (wantedDamp damp) =
      match wantedDamp damp with
      | some b => (s.modeMoved mask target).setDamp (axisSet mask) b
      | none => s.modeMoved mask target := by
  have hmoved : (match wantedTarget target with
      | some t => (axesOf (axisSet mask)).foldl (fun s k => s.applyTransition k t) s
      | none => s) = s.modeMoved mask target := by
    unfold State.modeMoved modeMakes wantedTarget
    by_cases h : target = 0xFF
    · rw [if_pos h]
      exact (foldl_modePass_none _ _ _).symm
    · rw [if_neg h]
      exact applyTransitions_eq _ _ _
  exact congrArg (fun t : State => match wantedDamp damp with | some b => t.setDamp (axisSet mask) b | none => t) hmoved

/-- What the DAMP action makes of a flag. -/
def dampOf (damp : Byte) (old : Bool) : Bool := if damp = 1 then true else if damp = 2 then false else old

theorem dampOf_eq (damp : Byte) (old : Bool) : dampOf damp old = (wantedDamp damp).getD old := by
  unfold dampOf wantedDamp
  split
  · rfl
  · split <;> rfl

theorem applyMode_axes (s : State) (mask target damp : Byte) :
    let t := s.applyMode (axisSet mask) (wantedTarget target) (wantedDamp damp)
    t = { s.modeMoved mask target with axes := t.axes } ∧
      ∀ k, t.axis k =
        if mask.getLsbD (axisIndex k) then
          { (s.modeMoved mask target).axis k with damp := dampOf damp ((s.modeMoved mask target).axis k).damp }
        else (s.modeMoved mask target).axis k := by
  intro t
  have hset (b : Bool) (k : Axis) : ((s.modeMoved mask target).setDamp (axisSet mask) b).axis k =
      if mask.getLsbD (axisIndex k) then { (s.modeMoved mask target).axis k with damp := b }
      else (s.modeMoved mask target).axis k := by
    unfold State.setDamp State.axis
    rw [Five.get_mapAxis, hasAxis_axisSet]
  have ht : t = _ := applyMode_eq s mask target damp
  simp only [dampOf_eq]
  cases hd : wantedDamp damp with
  | none =>
    rw [hd] at ht
    rw [ht]
    exact ⟨rfl, fun k => (ite_self _).symm⟩
  | some b =>
    rw [hd] at ht
    rw [ht]
    exact ⟨rfl, hset b⟩

theorem modeMakes_iff {mask target : Byte} {s : State} (ht : target.toNat ≤ 4 ∨ target = 0xFF)
    (h : ∀ k, ¬(mask.getLsbD (axisIndex k) = true ∧ (2 ≤ target.toNat ∧ target.toNat ≤ 4) ∧
      ((s.axis k).mode = .off ∨ (s.axis k).mode = .safe))) (k : Axis) :
    modeMakes mask target k (s.axis k) =
      (mask.getLsbD (axisIndex k) && decide (target ≠ 0xFF) && decide ((s.axis k).mode ≠ (wantedMode target).toMode)) := by
  unfold modeMakes wantedTarget
  by_cases hff : target = 0xFF
  · rw [if_pos hff, decide_eq_false (not_not_intro hff), Bool.and_false]
    rfl
  · have hle : target.toNat ≤ 4 := ht.resolve_right hff
    rw [if_neg hff, decide_eq_true hff, Bool.and_true]
    dsimp only
    unfold tableMakes
    rw [hasAxis_axisSet]
    cases hn : mask.getLsbD (axisIndex k) with
    | false => rfl
    | true =>
      have hno : transition (s.axis k).mode (wantedMode target) ≠ .refused := by
        rw [Ne, transition_refused_iff, wantedMode_active_iff hle]
        exact fun ⟨h2, hm⟩ => h k ⟨hn, ⟨h2, hle⟩, hm⟩
      simp only [transition_made_iff, ne_eq, hno, not_false_eq_true, true_and, Bool.true_and]

theorem modeRefused_wanted (s : State) {mask target : Byte} (ht : target.toNat ≤ 4 ∨ target = 0xFF) :
    (match wantedTarget target with | some m => modeRefused s (axisSet mask) m | none => false) = true ↔
      ∃ k, mask.getLsbD (axisIndex k) = true ∧ (2 ≤ target.toNat ∧ target.toNat ≤ 4) ∧
        ((s.axis k).mode = .off ∨ (s.axis k).mode = .safe) := by
  unfold wantedTarget
  by_cases hff : target = 0xFF
  · subst hff
    rw [if_pos rfl]
    exact ⟨nofun, fun ⟨k, _, ⟨_, h⟩, _⟩ => absurd h (by decide)⟩
  · have hle : target.toNat ≤ 4 := ht.resolve_right hff
    rw [if_neg hff]
    dsimp only
    rw [modeRefused_iff]
    refine exists_congr fun k => and_congr_right fun _ => ?_
    rw [wantedMode_active_iff hle]
    exact and_congr_left fun _ => ⟨fun h => ⟨h, hle⟩, And.left⟩

/-- Settles O37: the checks by the codes' cases, the axes by one pass of transitions. -/
theorem modeIsCheckedAsAWhole : Obligations.ModeIsCheckedAsAWhole := by
  intro tag mask target damp s hs a named goodFields refusedAxis wanted
  have hfields : goodFields ↔ goodModeFields mask target damp := Iff.rfl
  refine ⟨fun h => ?_, fun h hr => ?_, fun h hr => ?_⟩
  · have hserved : serveRule a (.mode mask target damp) = refused a .range := by
      change serveMode a mask target damp = _
      unfold serveMode
      rw [modeFields_none h]
    exact exec_served (r := .mode mask target damp) hs hserved
  · have hserved : serveRule a (.mode mask target damp) = refused a .state := by
      change serveMode a mask target damp = _
      unfold serveMode
      rw [modeFields_some h]
      exact if_pos ((modeRefused_wanted a h.2.2.1).2 hr)
    exact exec_served (r := .mode mask target damp) hs hserved
  intro changed
  have ht : target.toNat ≤ 4 ∨ target = 0xFF := h.2.2.1
  let t := a.applyMode (axisSet mask) (wantedTarget target) (wantedDamp damp)
  let p := modePass (modeMakes mask target) (wantedMode target)
  obtain ⟨hteq, hax⟩ := applyMode_axes a mask target damp
  have hnone : ¬(match wantedTarget target with | some m => modeRefused a (axisSet mask) m | none => false) = true :=
    fun e => (modeRefused_wanted a ht).1 e |>.elim hr
  have hserved : serveRule a (.mode mask target damp) = done (t.settle []) := by
    change serveMode a mask target damp = _
    unfold serveMode
    rw [modeFields_some h]
    exact if_neg hnone
  have hmakes (k : Axis) : p.act k (a.axis k) = changed k := modeMakes_iff (s := a) ht hr k
  have hmoved (k : Axis) : (a.modeMoved mask target).axis k =
      if changed k then (s.makeTransition k wanted).axis k else s.axis k := by
    refine (p.foldl_axis allAxes nodup_allAxes a k).trans ?_
    rw [if_pos (mem_allAxes k), modePass_result]
    change (if p.act k (a.axis k) then _ else _) = _
    rw [hmakes, makeTransition_eq, makeTransition_eq, leaves_axis_same, leaves_axis_same]
    rfl
  have hms : t.ms = (a.modeMoved mask target).ms := (congrArg State.ms hteq).trans rfl
  have hsw : t.sw = (a.modeMoved mask target).sw := (congrArg State.sw hteq).trans rfl
  have hcl : t.cl = (a.modeMoved mask target).cl := (congrArg State.cl hteq).trans rfl
  have hends (k : Axis) : p.endsSweep a k = (sweeping s k && (changed k && decide ((s.axis k).mode = .hold))) := by
    unfold Pass.endsSweep
    rw [hmakes]
    rfl
  refine ⟨t, exec_served (r := .mode mask target damp) hs hserved, fun k => ⟨fun hk => ?_, fun hk => ?_⟩, ?_, ?_, fun hq => ?_,
    fun k hc hw hm => ?_, fun hno => ?_⟩
  · have hc : changed k = false := by
      change (mask.getLsbD (axisIndex k) && _ && _) = false
      rw [show mask.getLsbD (axisIndex k) = false from hk]; rfl
    rw [hax k, if_neg (by rw [show mask.getLsbD (axisIndex k) = false from hk]; nofun), hmoved, hc]
    rfl
  · have hrec := (hax k).trans (if_pos hk)
    rw [hmoved] at hrec
    refine ⟨hrec.trans ?_, (congrArg AxisRec.mode hrec).trans ?_⟩
    · unfold dampOf
      split
      · rw [makeTransition_damp]
      · rfl
    · dsimp only
      by_cases hff : target = 0xFF
      · have hc : changed k = false := by
          change (_ && decide (target ≠ 0xFF) && _) = false
          rw [decide_eq_false (not_not_intro hff), Bool.and_false, Bool.false_and]
        rw [hc, if_pos hff]
        rfl
      · rw [if_neg hff]
        split
        · exact makeTransition_mode s k wanted
        · next hc =>
          by_contra hne
          refine hc ?_
          change (_ && decide (target ≠ 0xFF) && decide _) = true
          rw [decide_eq_true hff, decide_eq_true hne]
          simpa using hk
  · rw [hms, hsw, hcl]
    refine hteq.trans ?_
    have hfold := p.foldl_eq allAxes a
    change a.modeMoved mask target = _ at hfold
    rw [hfold]
    rfl
  · intro head rest out ab hq hp gone
    rw [hms]
    refine (p.foldl_phase allAxes nodup_allAxes a hq hp).trans ?_
    have hgone (k : Axis) : (hasAxis out k && p.drops a head.serial k) = gone k := by
      unfold Pass.drops
      rw [hmakes, ← Bool.and_assoc]
      rfl
    simp only [mem_allAxes, decide_true, Bool.true_and]
    congr 1
    · congr 1
      funext k
      rw [← hgone]
      cases hasAxis out k <;> rfl
    · rw [show gone = fun k => hasAxis out k && p.drops a head.serial k from funext fun k => (hgone k).symm]
  · rw [hms]
    exact p.foldl_phase_other allAxes a hq
  · rw [hsw, hcl, offerUnasked_eq]
    exact p.foldl_ended allAxes nodup_allAxes a (mem_allAxes k) (by rw [hends, hw, hc, decide_eq_true hm]; rfl)
  · rw [hsw, hcl]
    refine p.foldl_still allAxes nodup_allAxes a fun k _ => ?_
    rw [hends]
    cases hc : changed k with
    | false => rw [Bool.false_and, Bool.and_false]
    | true =>
      cases hw : sweeping s k with
      | false => rfl
      | true => rw [decide_eq_false (hno k hc hw)]; rfl

end Sys2Proof.Machine
end

section
/-! PROOFS. The moves of the queue's head, and QUEUE_CTRL. -/

namespace Sys2Proof.Machine

/-! ### The head's moves while progress is allowed (R76, R79, R82, R95) -/

theorem freshPhase_eq (q : List Entry) : freshPhase q = if q = [] then .none else .pending := by
  unfold freshPhase
  cases q <;> rfl

section
variable {s : State} {e : Entry} {rest : List Entry}

theorem headStep_pending (hp : progress s = true) (hq : s.ms.queue = e :: rest) (hph : s.ms.phase = .pending) :
    s.headStep = some (s.beginEntry e) := by
  unfold State.headStep
  rw [if_pos hp, hq, hph]

theorem headStep_waitingCue (hp : progress s = true) (hq : s.ms.queue = e :: rest) {left : Option Nat}
    (hph : s.ms.phase = .waitingCue left) {mask : Byte} {any consume : Bool} {timeout : Option Nat}
    (hb : e.body = .wait mask any consume timeout) :
    s.headStep = if waitHolds s.ms.cues mask any then some (s.retireWait mask any consume) else none := by
  unfold State.headStep
  rw [if_pos hp, hq, hph]
  dsimp only
  rw [hb]

theorem headStep_waitingSegments (hp : progress s = true) (hq : s.ms.queue = e :: rest) {out : AxisSet} {ab : Bool}
    (hph : s.ms.phase = .waitingSegments out ab) :
    s.headStep = if out = 0 then some (s.retire (if ab then .aborted else .done)) else none := by
  unfold State.headStep
  rw [if_pos hp, hq, hph]

theorem headStep_dwelling {n : Nat} (hph : s.ms.phase = .dwelling n) : s.headStep = none := by
  refine (headStep_none_iff s).2 fun _ e rest _ => ?_
  rw [hph]
  exact ⟨nofun, nofun, nofun⟩

/-- The head retired, with the Done List's record written out. -/
theorem retire_head (hq : s.ms.queue = e :: rest) (o : EntryOutcome) :
    s.retire o =
      { s with
        ms :=
          { s.ms with
            queue := rest
            phase := if rest = [] then .none else .pending
            doneList :=
              (s.ms.doneList ++ [(⟨e.serial, e.tag, e.body.kind, o, s.le.frameNo⟩ : DoneRecord)]).drop (s.ms.doneList.length - 7) } } := by
  rw [retire_eq hq, freshPhase_eq]
  rfl

theorem waitHolds_iff (cues mask : Byte) (any : Bool) :
    waitHolds cues mask any = true ↔ if any then cues &&& mask ≠ 0 else cues &&& mask = mask := by
  unfold waitHolds
  cases any <;> simp

/-- A WAIT consumes its mask's flags, whichever its condition asks for. -/
theorem clear_matchedCues (cues mask : Byte) (any : Bool) : cues &&& ~~~(matchedCues cues mask any) = cues &&& ~~~mask := by
  unfold matchedCues
  cases any with
  | false => rfl
  | true =>
    refine BitVec.eq_of_getLsbD_eq fun i hi => ?_
    simp only [if_true, BitVec.getLsbD_and, BitVec.getLsbD_not, hi, decide_true, Bool.true_and]
    cases cues.getLsbD i <;> simp

theorem retireWait_eq (s : State) (mask : Byte) (any consume : Bool) :
    s.retireWait mask any consume = (s.writeCues (if consume then s.ms.cues &&& ~~~mask else s.ms.cues)).retire .done := by
  unfold State.retireWait
  rw [clear_matchedCues]
  cases consume <;> rfl

end

/-! ### Launches (R77, R78) -/

theorem axis_setAxis_other (s : State) {k j : Axis} (h : j ≠ k) (x : AxisRec) : (s.setAxis k x).axis j = s.axis j := by
  rw [State.axis_setAxis, if_neg h]

/-- The entry has a segment for the axis, which can take it. -/
def launchTaken (e : Entry) (s : State) (k : Axis) : Bool := isActive (s.axis k).mode && (segmentEnd s k e.body).isSome

/-- The axis record with the entry's segment handed to it. -/
def handedRecord (e : Entry) (dn : Nat) (shape : Shape) (endMode : EndMode) (s : State) (k : Axis) : AxisRec :=
  { s.axis k with
    launch :=
      some ⟨e.serial, BitVec.ofInt 32 (setpointOffset k (s.axis k)), (segmentEnd s k e.body).getD 0, dn, 0, shape, endMode⟩ }

theorem reportSegment_other {s : State} (h : s.ms.queue = [] ∨ ∀ out ab, s.ms.phase ≠ .waitingSegments out ab) (k : Axis)
    (serial : Half) (aborted : Bool) : s.reportSegment k serial aborted = s := by
  rw [reportSegment_eq]
  have hphase : reportedPhase s.ms k serial aborted = s.ms.phase := by
    unfold reportedPhase
    split
    · next out ab hq hp =>
      rcases h with h | h
      · rw [h] at hq; cases hq
      · exact absurd hp (h out ab)
    · rfl
  rw [hphase]
  rfl

section
variable (e : Entry) (dn : Nat) (shape : Shape) (endMode : EndMode)

theorem launchAxis_eq (p : State × AxisSet) (h : p.1.ms.phase = .pending) (k : Axis) :
    launchAxis e dn shape endMode p k =
      if launchTaken e p.1 k then (p.1.setAxis k (handedRecord e dn shape endMode p.1 k), p.2 ||| axisSetOf (fun q => q = k)) else p := by
  have hhand (g : Segment) : p.1.handLaunch k g = p.1.setAxis k { p.1.axis k with launch := some g } := by
    unfold State.handLaunch
    dsimp only
    split
    · exact reportSegment_other (.inr fun out ab hp => by cases h.symm.trans hp) _ _ _
    · rfl
  unfold launchAxis launchTaken handedRecord
  dsimp only
  cases segmentEnd p.1 k e.body with
  | none => rw [Option.isSome_none, Bool.and_false]; rfl
  | some s1 =>
    dsimp only
    rw [Option.isSome_some, Bool.and_true, hhand]
    rfl

theorem segmentEnd_setAxis (s : State) {k j : Axis} (h : j ≠ k) (x : AxisRec) (b : EntryBody) :
    segmentEnd (s.setAxis k x) j b = segmentEnd s j b := by
  cases b <;> first | rfl | (unfold segmentEnd; rw [axis_setAxis_other _ h _])

theorem hasAxis_with (out : AxisSet) (k j : Axis) : hasAxis (out ||| axisSetOf (fun q => q = k)) j = (hasAxis out j || decide (j = k)) := by
  have hk : hasAxis (axisSetOf (fun q => decide (q = k))) j = decide (j = k) := hasAxis_axisSetOf _ j
  unfold hasAxis at hk ⊢
  rw [BitVec.getLsbD_or, hk]

/-- The axes of a launch, in any order: each that can take its segment is handed it. -/
theorem foldl_launchAxis (l : List Axis) (hl : l.Nodup) (p : State × AxisSet) (h : p.1.ms.phase = .pending) :
    let q := l.foldl (launchAxis e dn shape endMode) p
    q.1 = { p.1 with axes := q.1.axes } ∧
      (∀ k, q.1.axis k = if decide (k ∈ l) && launchTaken e p.1 k then handedRecord e dn shape endMode p.1 k else p.1.axis k) ∧
      ∀ k, hasAxis q.2 k = (hasAxis p.2 k || (decide (k ∈ l) && launchTaken e p.1 k)) := by
  induction l generalizing p with
  | nil => exact ⟨rfl, fun _ => rfl, fun _ => (Bool.or_false _).symm⟩
  | cons j l ih =>
    intro q
    obtain ⟨hj, hl⟩ := List.nodup_cons.1 hl
    let p' := launchAxis e dn shape endMode p j
    have hp' : p' = _ := launchAxis_eq e dn shape endMode p h j
    have hstate : p'.1 = { p.1 with axes := p'.1.axes } := by rw [hp']; split <;> rfl
    have hphase : p'.1.ms.phase = .pending := (congrArg (fun s : State => s.ms.phase) hstate).trans h
    have hother {k : Axis} (hk : k ≠ j) : p'.1.axis k = p.1.axis k := by
      rw [hp']
      split
      · exact axis_setAxis_other _ hk _
      · rfl
    have htaken {k : Axis} (hk : k ≠ j) : launchTaken e p'.1 k = launchTaken e p.1 k := by
      rw [hp']
      split
      · unfold launchTaken
        rw [axis_setAxis_other _ hk _, segmentEnd_setAxis _ hk]
      · rfl
    have hrecord {k : Axis} (hk : k ≠ j) : handedRecord e dn shape endMode p'.1 k = handedRecord e dn shape endMode p.1 k := by
      rw [hp']
      split
      · unfold handedRecord
        rw [axis_setAxis_other _ hk _, segmentEnd_setAxis _ hk]
      · rfl
    obtain ⟨hrest, haxes, hset⟩ := ih hl p' hphase
    refine ⟨hrest.trans (by rw [hstate]; rfl), fun k => (haxes k).trans ?_, fun k => (hset k).trans ?_⟩
    · by_cases hk : k = j
      · subst hk
        rw [decide_eq_false hj, Bool.false_and, if_neg (by nofun), decide_eq_true (List.mem_cons_self ..), Bool.true_and, hp']
        split
        · exact State.axis_setAxis_same _ _ _
        · rfl
      · rw [hother hk, htaken hk, hrecord hk]
        simp only [List.mem_cons, hk, false_or]
    · by_cases hk : k = j
      · subst hk
        rw [decide_eq_false hj, Bool.false_and, Bool.or_false, decide_eq_true (List.mem_cons_self ..), Bool.true_and, hp']
        split
        case isTrue ht => rw [hasAxis_with, ht, decide_eq_true rfl]
        case isFalse ht => rw [Bool.eq_false_of_not_eq_true ht, Bool.or_false]
      · have hkeep : hasAxis p'.2 k = hasAxis p.2 k := by
          rw [hp']
          split
          · rw [hasAxis_with, decide_eq_false hk, Bool.or_false]
          · rfl
        rw [hkeep, htaken hk]
        simp only [List.mem_cons, hk, false_or]

/-- The state once every axis that can take its segment has been handed it. -/
def State.launchedAll (s : State) : State :=
  { s with axes := s.axes.mapAxis (fun k a => if launchTaken e s k then { a with launch := (handedRecord e dn shape endMode s k).launch } else a) }

theorem foldl_launchAxis_all (s : State) (h : s.ms.phase = .pending) :
    allAxes.foldl (launchAxis e dn shape endMode) (s, 0) =
      (s.launchedAll e dn shape endMode, axisSetOf (launchTaken e s)) := by
  obtain ⟨hstate, haxes, hset⟩ := foldl_launchAxis e dn shape endMode allAxes nodup_allAxes (s, 0) h
  refine Prod.ext (hstate.trans ?_) (axisSet_ext fun k => ?_)
  · refine congrArg (fun x => ({ s with axes := x } : State)) ?_
    refine Five.ext_get fun k => (haxes k).trans ?_
    rw [Five.get_mapAxis, decide_eq_true (mem_allAxes k), Bool.true_and]
    rfl
  · rw [hset, hasAxis_axisSetOf, decide_eq_true (mem_allAxes k), Bool.true_and]
    have hnone : hasAxis 0 k = false := by cases k <;> rfl
    rw [hnone, Bool.false_or]

/-- No axis can take its segment. -/
theorem launchedAll_none {s : State} (h : axisSetOf (launchTaken e s) = 0) : s.launchedAll e dn shape endMode = s := by
  refine congrArg (fun x => ({ s with axes := x } : State)) (Five.ext_get fun k => ?_)
  have hno : launchTaken e s k = false := by
    rw [← hasAxis_axisSetOf (launchTaken e s) k, h]
    cases k <;> rfl
  rw [Five.get_mapAxis, hno]
  rfl

variable {e dn shape endMode}

theorem headStep_launch {s : State} {rest : List Entry} {wait : Bool} (hp : progress s = true) (hq : s.ms.queue = e :: rest)
    (hph : s.ms.phase = .pending) (hb : s.beginEntry e = s.beginLaunch e dn shape endMode wait) :
    s.headStep =
      some
        (if axisSetOf (launchTaken e s) = 0 then s.retire .skipped
        else if wait then (s.launchedAll e dn shape endMode).setPhase (.waitingSegments (axisSetOf (launchTaken e s)) false)
        else (s.launchedAll e dn shape endMode).retire .done) := by
  rw [headStep_pending hp hq hph, hb]
  unfold State.beginLaunch
  rw [foldl_launchAxis_all e dn shape endMode s hph]
  dsimp only
  split
  case isTrue h => rw [launchedAll_none e dn shape endMode h]
  case isFalse => rfl

end

/-! ### MODE entries (R84) -/

/-- A queue MODE entry makes its transition on the axis. -/
def entryMakes (mask : AxisSet) (target : TargetMode) (k : Axis) (x : AxisRec) : Bool :=
  hasAxis mask k && decide (x.mode ≠ target.toMode) &&
    !(decide (target = .hold ∨ target = .rate ∨ target = .follow) && decide (x.mode = .off ∨ x.mode = .safe)) &&
    !(decide (target = .follow) && !isHeading k)

theorem entryTransition_made_iff (s : State) (k : Axis) (target : TargetMode) :
    entryTransition s k target = .made ↔
      ¬(target = .follow ∧ isHeading k = false) ∧ transition (s.axis k).mode target ≠ .refused ∧ (s.axis k).mode ≠ target.toMode := by
  unfold entryTransition
  split
  case isTrue h => exact ⟨nofun, fun hn => absurd h hn.1⟩
  case isFalse h => rw [transition_made_iff]; exact (and_iff_right h).symm

theorem modeAxis_eq (mask : AxisSet) (target : TargetMode) (p : State × Bool) (k : Axis) :
    (if hasAxis mask k then modeAxis target p k else p) =
      ((modePass (entryMakes mask target) target).step p.1 k, p.2 || entryMakes mask target k (p.1.axis k)) := by
  rw [modePass_step]
  cases hk : hasAxis mask k with
  | false =>
    have hno : entryMakes mask target k (p.1.axis k) = false := by unfold entryMakes; rw [hk]; rfl
    rw [hno, Bool.or_false]
    rfl
  | true =>
    have hmakes : entryMakes mask target k (p.1.axis k) = decide (entryTransition p.1 k target = .made) := by
      refine Bool.eq_iff_iff.2 ?_
      rw [decide_eq_true_iff, entryTransition_made_iff, Ne, transition_refused_iff]
      unfold entryMakes
      rw [hk]
      simp only [Bool.and_eq_true, Bool.not_eq_true', decide_eq_true_eq, Bool.and_eq_false_iff, decide_eq_false_iff_not,
        Bool.not_eq_false', true_and, not_and_or, Bool.not_eq_false]
      tauto
    unfold modeAxis
    rw [hmakes]
    cases entryTransition p.1 k target <;> simp

theorem foldl_modeAxis (mask : AxisSet) (target : TargetMode) (l : List Axis) (hl : l.Nodup) (p : State × Bool) :
    l.foldl (fun p k => if hasAxis mask k then modeAxis target p k else p) p =
      (l.foldl (modePass (entryMakes mask target) target).step p.1,
        p.2 || l.any (fun k => entryMakes mask target k (p.1.axis k))) := by
  induction l generalizing p with
  | nil => rw [List.any_nil, Bool.or_false]; rfl
  | cons j l ih =>
    obtain ⟨hj, hl⟩ := List.nodup_cons.1 hl
    rw [List.foldl_cons, modeAxis_eq, ih hl, List.foldl_cons, List.any_cons, Bool.or_assoc]
    congr 3
    refine Bool.eq_iff_iff.2 ?_
    simp only [List.any_eq_true]
    exact exists_congr fun k => and_congr_right fun hk => by
      rw [Pass.step_axis_other _ _ (fun h : k = j => hj (h ▸ hk))]

/-- A MODE entry: its transitions in one pass, then its retirement. -/
theorem beginEntry_mode {s : State} {e : Entry} {mask : AxisSet} {target : TargetMode} (h : e.body = .mode mask target) :
    s.beginEntry e =
      (allAxes.foldl (modePass (entryMakes mask target) target).step s).retire
        (if allAxes.any (fun k => entryMakes mask target k (s.axis k)) then .done else .skipped) := by
  unfold State.beginEntry
  rw [h]
  dsimp only
  unfold axesOf
  rw [List.foldl_filter, foldl_modeAxis mask target allAxes nodup_allAxes (s, false)]
  rfl

/-! ### QUEUE_CTRL (R73, R74, R89) -/

/-- A DWELL that QUEUE_CTRL's RUN takes up. -/
theorem settle_run_dwell {s : State} (h : AtRest s) {e : Entry} {rest : List Entry} {n : Nat} (hq : s.ms.queue = e :: rest)
    (hp : s.ms.phase = .pending) (hk : s.ms.holdKill = false) (ha : s.ms.holdAlert = false) (hb : e.body = .dwell n) :
    (s.setRunning true).settle [] = (s.setRunning true).setPhase (.dwelling n) := by
  have hprogress : progress (s.setRunning true) = true := by
    change (true && !s.ms.holdKill && !s.ms.holdAlert) = true
    rw [hk, ha]
    rfl
  have hstep : (s.setRunning true).headStep = some ((s.setRunning true).setPhase (.dwelling n)) := by
    rw [headStep_pending (e := e) (rest := rest) hprogress hq hp]
    unfold State.beginEntry
    rw [hb]
  have hjudged : Judged (s.setRunning true) := judged_of_same (s := s) rfl {} ⟨h.1, h.2.1⟩
  have harb : (s.setRunning true).arbitrate = none := by
    rw [arbitrate_none_iff]
    exact (arbitrate_none_iff s).1 h.2.2.1
  have hrest : AtRest ((s.setRunning true).setPhase (.dwelling n)) := h.of_headStep (headStep_dwelling rfl) {}
  rw [settle_judged hjudged, toRest_quiet hjudged (settleStep_of_run harb hp hstep) ⟨hrest.1, hrest.2.1⟩]
  exact toRest_atRest hrest

/-- Settles O42: a rule for each phase and each kind of entry. -/
theorem queueControl : Obligations.QueueControl := by
  refine ⟨fun tag x s h => ?_, fun s h => headStep_none_of_no_progress h, fun s e rest hp hq => ?_,
    fun s e rest k serial aborted out ab hq hp => ?_, fun s k serial aborted h => reportSegment_other h k serial aborted⟩
  · intro a
    have hrun : exec (.queueCtrlRun tag) s = .next (((a.setRunning true).settle []).deliver ⟨0x91, tag, [0]⟩) :=
      exec_served (r := .queueCtrl 0) h rfl
    refine ⟨hrun, exec_served (r := .queueCtrl 1) h rfl, exec_served (r := .queueCtrl 2) h rfl, fun hx => ?_,
      fun e rest n hq hp hk ha hb => ?_⟩
    · have hserved : serveRule a (.queueCtrl x) = refused a .range := by
        change serveQueueCtrl a x = _
        unfold serveQueueCtrl
        split <;> first | omega | rfl
      exact exec_served (r := .queueCtrl x) h hserved
    · rw [hrun, settle_run_dwell (s := a) h.1.arrived hq hp hk ha hb]
      rfl
  · intro retired phased flags holds met s0 launches
    have hretired {u : State} (hu : u.ms.queue = e :: rest) (o : EntryOutcome) : u.retire o = retired u o := retire_head hu o
    have hmet (mask : Byte) (any consume : Bool) : s.retireWait mask any consume = met mask consume := by
      rw [retireWait_eq]
      exact hretired (u := flags (if consume then s.ms.cues &&& ~~~mask else s.ms.cues)) hq .done
    have hlaunch {dn : Nat} {shape : Shape} {endMode : EndMode} {wait : Bool} (hph : s.ms.phase = .pending)
        (hb : s.beginEntry e = s.beginLaunch e dn shape endMode wait) :
        launches (fun k => segmentEnd s k e.body) dn shape endMode wait := by
      change s.headStep = some (if axisSetOf (launchTaken e s) = 0 then retired s .skipped
        else if wait then phased (s.launchedAll e dn shape endMode) (.waitingSegments (axisSetOf (launchTaken e s)) false)
        else retired (s.launchedAll e dn shape endMode) .done)
      rw [headStep_launch hp hq hph hb, hretired hq, hretired (u := s.launchedAll e dn shape endMode) hq]
      rfl
    refine ⟨fun hph => ⟨fun n hb => ?_, fun mask any consume timeout hb => ?_, fun set clear hb => ?_, fun mask target hb => ?_,
      fun mask slot dn shape endMode wait hb => ?_, fun deltas dn shape endMode wait hb => ?_⟩,
      fun left mask any consume timeout hph hb => ?_, fun out aborted hph => ?_, fun n hph => headStep_dwelling hph⟩
    · rw [headStep_pending hp hq hph]
      unfold State.beginEntry
      rw [hb]
      rfl
    · have hbegin : s.headStep =
          some (if waitHolds s.ms.cues mask any then s.retireWait mask any consume else s.setPhase (.waitingCue timeout)) := by
        rw [headStep_pending hp hq hph]
        unfold State.beginEntry
        rw [hb]
      refine ⟨fun hw => ?_, fun hw => ?_⟩
      · rw [hbegin, if_pos ((waitHolds_iff _ _ _).2 hw), hmet]
      · rw [hbegin, if_neg (fun hh => hw ((waitHolds_iff _ _ _).1 hh))]
        rfl
    · rw [headStep_pending hp hq hph]
      unfold State.beginEntry
      rw [hb]
      exact congrArg some (hretired (u := flags ((s.ms.cues &&& ~~~clear) ||| set)) hq .done)
    · intro made
      let p := modePass (entryMakes mask target) target
      let u := allAxes.foldl p.step s
      have hfold : u = _ := p.foldl_eq allAxes s
      have hms : u.ms = s.ms := by
        have hphase : u.ms.phase = s.ms.phase :=
          p.foldl_phase_other allAxes s (.inr fun out ab hw => by cases hph.symm.trans hw)
        rw [hfold]
        change ({ s.ms with phase := u.ms.phase } : Sequencer) = s.ms
        rw [hphase]
      have hle : u.le = s.le := by rw [hfold]
      refine ⟨u, hms, hle, fun k => ?_, ?_⟩
      · refine (p.foldl_axis allAxes nodup_allAxes s k).trans ?_
        rw [if_pos (mem_allAxes k), modePass_result]
        rfl
      · rw [headStep_pending hp hq hph, beginEntry_mode hb]
        exact congrArg some (hretired (u := u) ((congrArg Sequencer.queue hms).trans hq) _)
    · have h := hlaunch (dn := dn) (shape := shape) (endMode := endMode) (wait := wait) hph (by unfold State.beginEntry; rw [hb])
      rw [hb] at h
      exact h
    · have h := hlaunch (dn := dn) (shape := shape) (endMode := endMode) (wait := wait) hph (by unfold State.beginEntry; rw [hb])
      rw [hb] at h
      have hends : (fun k => segmentEnd s k (.shift deltas dn shape endMode wait)) = fun k =>
          (deltas.get k).map (fun d => BitVec.ofInt 32 (max (-2147483648) (min 2147483647 (s0 k + d.toInt)))) :=
        funext fun k => congrArg (fun f => (deltas.get k).map f) (funext fun d => congrArg (BitVec.ofInt 32) (clampInt_eq_max_min (by decide) _))
      rw [hends] at h
      exact h
    · have hstep := headStep_waitingCue hp hq hph hb
      refine ⟨fun hw => ?_, fun hw => ?_⟩
      · rw [hstep, if_pos ((waitHolds_iff _ _ _).2 hw), hmet]
      · rw [hstep, if_neg (fun hh => hw ((waitHolds_iff _ _ _).1 hh))]
    · rw [headStep_waitingSegments hp hq hph, hretired hq]
  · rw [reportSegment_eq]
    unfold reportedPhase
    rw [hq, hp]
    dsimp only
    split
    · have hset : (out &&& ~~~(axisSetOf (fun q => q = k))) = axisSetOf (fun q => hasAxis out q && decide (q ≠ k)) :=
        axisSet_ext fun j => by rw [hasAxis_without, hasAxis_axisSetOf, decide_not]
      rw [hset]
      rfl
    · rw [← hp, setPhase_self]

end Sys2Proof.Machine
end

section
/-! PROOFS. One source becomes pending at rest: whether it is taken, what its taking leaves, and what follows it. -/

namespace Sys2Proof.Machine

/-! ### One source becomes pending (R143 to R146) -/

/-- The source of a due. -/
def Due.source : Due → Source
  | .condition src => src
  | .raised src _ => src

/-- The source has become pending; its level, its enable and its kind are as before. -/
theorem source_markDue (s : State) (d : Due) (j : Source) :
    let x := (s.markDue d).source j
    x.enable = (s.source j).enable ∧ x.level = (s.source j).level ∧ x.latched = (s.source j).latched ∧
      x.pending = ((s.source j).pending || decide (j = d.source)) := by
  cases d with
  | condition src =>
    simp only [State.markDue, source_setSource, Due.source]
    split
    · next h => subst h; simp
    · next h => simp [h]
  | raised src p =>
    simp only [State.markDue, source_setSource, Due.source]
    split
    · next h => subst h; simp
    · next h => simp [h]

theorem firstWaiting_none_iff (s : State) (l : Level) :
    firstWaiting s l = none ↔ ∀ src, ¬((s.source src).pending = true ∧ (s.source src).enable = true ∧ (s.source src).level = l) := by
  unfold firstWaiting
  rw [List.find?_eq_none]
  simp [mem_allSources, and_assoc]

/-- A level waits for no source but one. -/
theorem firstWaiting_of_only {s : State} {l : Level} {src : Source}
    (h : ∀ j, ((s.source j).pending = true ∧ (s.source j).enable = true ∧ (s.source j).level = l) ↔ j = src) :
    firstWaiting s l = some src := by
  cases hw : firstWaiting s l with
  | none => exact absurd ((h src).2 rfl) ((firstWaiting_none_iff s l).1 hw src)
  | some j =>
    have hj := List.find?_some hw
    simp only [Bool.and_eq_true, decide_eq_true_eq, and_assoc] at hj
    exact congrArg some ((h j).1 hj)

/-- At rest nothing has waited for the level, and one source becomes pending. -/
theorem firstWaiting_markDue {s : State} {l : Level} (h : firstWaiting s l = none) (d : Due) :
    firstWaiting (s.markDue d) l =
      if (s.source d.source).enable = true ∧ (s.source d.source).level = l then some d.source else none := by
  have hnone := (firstWaiting_none_iff s l).1 h
  split
  case isTrue hd =>
    refine firstWaiting_of_only fun j => ?_
    obtain ⟨he, hl, -, hp⟩ := source_markDue s d j
    rw [he, hl, hp, Bool.or_eq_true, decide_eq_true_eq]
    refine ⟨fun ⟨hp, he, hl⟩ => hp.resolve_left fun hp => hnone j ⟨hp, he, hl⟩, ?_⟩
    rintro rfl
    exact ⟨.inr rfl, hd⟩
  case isFalse hd =>
    refine (firstWaiting_none_iff _ _).2 fun j => ?_
    obtain ⟨he, hl, -, hp⟩ := source_markDue s d j
    rw [he, hl, hp, Bool.or_eq_true, decide_eq_true_eq]
    rintro ⟨hp | rfl, he, hl⟩
    · exact hnone j ⟨hp, he, hl⟩
    · exact hd ⟨he, hl⟩

theorem markDue_alc (s : State) (d : Due) :
    s.markDue d = { s with alc := { s.alc with sources := (s.markDue d).alc.sources } } := by
  cases d <;> rfl

/-- The source waits: it is not enabled, or its level cannot be taken. -/
theorem arbitrate_markDue_waits {s : State} (h : s.arbitrate = none) {d : Due}
    (hd : (s.source d.source).enable = false ∨ s.alc.inService2 = true ∨
      ((s.source d.source).level = .one ∧ s.alc.inService1 = true)) : (s.markDue d).arbitrate = none := by
  rw [arbitrate_none_iff] at h ⊢
  rw [markDue_alc] 
  rcases h with h2 | ⟨hw2, hw1⟩
  · exact .inl h2
  rcases hd with he | h2 | ⟨hl, h1⟩
  · refine .inr ⟨?_, hw1.imp_right fun hw => ?_⟩
    · rw [← markDue_alc, firstWaiting_markDue hw2, he, if_neg (by simp)]
    · rw [← markDue_alc, firstWaiting_markDue hw, he, if_neg (by simp)]
  · exact .inl h2
  · refine .inr ⟨?_, .inl h1⟩
    rw [← markDue_alc, firstWaiting_markDue hw2, hl, if_neg (by simp)]

/-- The source is taken at its level. -/
theorem arbitrate_markDue_two {s : State} (h : s.arbitrate = none) {d : Due} (he : (s.source d.source).enable = true)
    (hl : (s.source d.source).level = .two) (h2 : s.alc.inService2 = false) :
    (s.markDue d).arbitrate = some ((s.markDue d).take .two d.source) := by
  obtain ⟨hw2, -⟩ := ((arbitrate_none_iff s).1 h).resolve_left (by rw [h2]; nofun)
  have h2' : (s.markDue d).alc.inService2 = false := by rw [markDue_alc]; exact h2
  have htwo : firstWaiting (s.markDue d) .two = some d.source := (firstWaiting_markDue hw2 d).trans (if_pos ⟨he, hl⟩)
  unfold State.arbitrate
  rw [h2', htwo]
  rfl

theorem arbitrate_markDue_one {s : State} (h : s.arbitrate = none) {d : Due} (he : (s.source d.source).enable = true)
    (hl : (s.source d.source).level = .one) (h2 : s.alc.inService2 = false) (h1 : s.alc.inService1 = false) :
    (s.markDue d).arbitrate = some ((s.markDue d).take .one d.source) := by
  obtain ⟨hw2, hw1⟩ := ((arbitrate_none_iff s).1 h).resolve_left (by rw [h2]; nofun)
  have hw1 := hw1.resolve_left (by rw [h1]; nofun)
  have h2' : (s.markDue d).alc.inService2 = false := by rw [markDue_alc]; exact h2
  have h1' : (s.markDue d).alc.inService1 = false := by rw [markDue_alc]; exact h1
  have htwo : firstWaiting (s.markDue d) .two = none := (firstWaiting_markDue hw2 d).trans (if_neg (by rw [hl]; nofun))
  have hone : firstWaiting (s.markDue d) .one = some d.source := (firstWaiting_markDue hw1 d).trans (if_pos ⟨he, hl⟩)
  unfold State.arbitrate
  rw [h2', h1', htwo, hone]
  rfl

theorem headStep_markDue (s : State) (d : Due) (h : s.headStep = none) : (s.markDue d).headStep = none := by
  rw [markDue_alc]
  exact SameHead.headStep_none {} h

/-- One source of the event becomes pending at rest, and the rest follows. -/
theorem toRest_due {s : State} (h : AtRest s) (d : Due) : s.toRest ⟨[], [d]⟩ = (s.markDue d).toRest ⟨[], []⟩ := by
  have hj : Judged s := ⟨h.1, h.2.1⟩
  have hstep : settleStep ⟨[], [d]⟩ s = some (⟨[], []⟩, s.markDue d) := by
    simp only [settleStep, h.2.2.1, h.2.2.2, dueStep, pickDue_single]
    cases headPending s <;> rfl
  have hmarked : Judged (s.markDue d) := judged_markDue hj 1 d
  rw [toRest_quiet hj hstep hmarked]
  rfl

/-- A source that waits leaves the part at rest. -/
theorem atRest_markDue {s : State} (h : AtRest s) {d : Due} (hd : (s.markDue d).arbitrate = none) : AtRest (s.markDue d) := by
  have hmarked : Judged (s.markDue d) := judged_markDue (s := s) ⟨h.1, h.2.1⟩ 1 d
  exact ⟨hmarked.1, hmarked.2, hd, headStep_markDue s d h.2.2.2⟩

theorem toRest_taken {s t : State} (hj : Judged s) (h : s.arbitrate = some t) :
    s.toRest ⟨[], []⟩ = t.judge.1.toRest ((⟨[], []⟩ : Waiting).judged t.judge) :=
  toRest_step hj (by unfold settleStep; rw [h])

/-! ### What a taking leaves (R147, R149, R150) -/

theorem changeCues_outside (s : State) (c : Byte) :
    s.changeCues c = { s with ms := (s.changeCues c).ms } := by
  have hretire (t : State) (o : EntryOutcome) : t.retire o = { t with ms := (t.retire o).ms } := by
    unfold State.retire
    split <;> rfl
  unfold State.changeCues
  split
  · rfl
  · unfold State.testWait
    split
    · next n hph =>
      cases hh : (s.writeCues c).headStep with
      | none => rfl
      | some t =>
        obtain ⟨-, e, rest, -, hcase⟩ := headStep_cases hh
        rcases hcase with ⟨hp, -⟩ | ⟨left, mask, any, consume, timeout, -, -, -, rfl⟩ | ⟨aborted, hp, -⟩
        · cases hph.symm.trans hp
        · rw [retireWait_eq]
          exact hretire _ _
        · cases hph.symm.trans hp
    · rfl

/-- The change of the cues and the head's answer depend on the sequencer and the frame number alone. -/
theorem changeCues_ms {s t : State} (hms : t.ms = s.ms) (hle : t.le.frameNo = s.le.frameNo) (c : Byte) :
    (t.changeCues c).ms = (s.changeCues c).ms := by
  have hretire {u v : State} (hm : v.ms = u.ms) (hf : v.le.frameNo = u.le.frameNo) (o : EntryOutcome) :
      (v.retire o).ms = (u.retire o).ms := by
    unfold State.retire
    rw [hm, hf]
    cases u.ms.queue with
    | nil => exact hm
    | cons e rest => rfl
  have hwrites (x : Byte) : (t.writeCues x).ms = (s.writeCues x).ms := by
    unfold State.writeCues
    rw [hms]
  have hwrite := hwrites c
  have hprogress : progress (t.writeCues c) = progress (s.writeCues c) := by unfold progress; rw [hwrite]
  have hhead {n : Option Nat} (hph : (s.writeCues c).ms.phase = .waitingCue n) :
      ((t.writeCues c).headStep.getD (t.writeCues c)).ms = ((s.writeCues c).headStep.getD (s.writeCues c)).ms := by
    cases hp : progress (s.writeCues c) with
    | false => rw [headStep_none_of_no_progress hp, headStep_none_of_no_progress (hprogress.trans hp)]; exact hwrite
    | true =>
      unfold State.headStep
      rw [hprogress, hp, if_pos rfl, if_pos rfl, hwrite, hph]
      cases hq : (s.writeCues c).ms.queue with
      | nil => exact hwrite
      | cons e rest =>
        dsimp only
        split
        · next mask any consume _ _ =>
          split
          · rw [Option.getD_some, Option.getD_some, retireWait_eq, retireWait_eq]
            exact hretire (hwrites (if consume then c &&& ~~~mask else c)) hle _
          · exact hwrite
        · exact hwrite
  unfold State.changeCues
  rw [hms]
  split
  · exact hms
  · unfold State.testWait
    rw [hwrite]
    split
    · next n hph => exact hhead hph
    · exact hwrite

/-- The cues after a taking at a level (R99, R147). -/
def alertCues (s : State) (level : Level) : Byte := s.ms.cues ||| cuesOf s.ms.cueSources (.alert level)

theorem inService_le (s : State) (level : Level) (src : Source) : (s.inService level src).le = s.le :=
  (inService_same s level src).2.1

theorem inService_one_ms (s : State) (src : Source) : (s.inService .one src).ms = s.ms := by
  rw [inService_ms, decide_eq_false (by nofun), Bool.or_false]

theorem inService_two_ms (s : State) (src : Source) : (s.inService .two src).ms = { s.ms with holdAlert := true } := by
  rw [inService_ms, decide_eq_true rfl, Bool.or_true]

/-- A taking at level 1 sets its cues with the head's answer. -/
theorem take_one_ms (s : State) (src : Source) : (s.take .one src).ms = (s.changeCues (alertCues s .one)).ms := by
  rw [take_ms]
  have hms := inService_one_ms s src
  refine (changeCues_ms hms (congrArg LoopEngine.frameNo (inService_le s .one src)) _).trans ?_
  rw [hms]
  rfl

theorem acted_one (s : State) (src : Source) :
    s.acted .one src = { s.inService .one src with ms := (s.acted .one src).ms } := changeCues_outside (s.inService .one src) _

theorem take_one_axis (s : State) (src : Source) (k : Axis) :
    (s.take .one src).axis k = { s.axis k with damp := (s.axis k).damp || hasAxis (affectedAxes s src) k } := by
  have hacted : (s.acted .one src).axes = (s.inService .one src).axes := (congrArg State.axes (acted_one s src)).trans rfl
  unfold State.axis
  rw [take_axes, hacted, inService_axes]
  dsimp only
  rw [Five.get_mapAxis]
  cases hasAxis (affectedAxes s src) k with
  | false => rw [Bool.or_false]; rfl
  | true => rw [Bool.or_true]; rfl

theorem take_one_sw (s : State) (src : Source) : (s.take .one src).sw = s.sw := by
  rw [take_sw]
  exact (congrArg State.sw (acted_one s src)).trans (inService_sw s .one src)

/-- The ALERT_TAKEN notice of a taking. -/
def takenNotice (s : State) (level : Level) (src : Source) : Frame :=
  ⟨0x48, 0, wordBytes s.le.frameNo ++ [levelByte level, byteOf (sourceNumber src), axisSetByte (affectedAxes s src)] ++
    halfBytes (s.causeParam src).1⟩

theorem take_one_cl (s : State) (src : Source) : (s.take .one src).cl = s.cl.offer (takenNotice s .one src) := by
  have hacted : (s.acted .one src).cl = s.cl := (congrArg State.cl (acted_one s src)).trans (inService_cl s .one src)
  rw [take_cl, hacted]
  rfl

/-- The axes of a level-2 taking enter SAFE in one pass (R28, R150). -/
def safePass (mask : AxisSet) : Pass where
  act k x := hasAxis mask k && isActive x.mode
  record _ x saved := { withD x saved with mode := .safe, jlock := x.j, segment := none, launch := none }
  ends _ := true

theorem safePass_step (mask : AxisSet) (s : State) (k : Axis) :
    (safePass mask).step s k =
      if hasAxis mask k && isActive (s.axis k).mode then
        s.leaves k
          { withD (s.axis k) (savedFor s k) with mode := .safe, jlock := (s.axis k).j, segment := none, launch := none } true
      else s := rfl

theorem enterSafes_eq (mask : AxisSet) (s : State) :
    (axesOf mask).foldl State.enterSafe s = allAxes.foldl (safePass mask).step s := by
  unfold axesOf
  rw [List.foldl_filter]
  congr 1
  funext s k
  rw [enterSafe_eq, safePass_step]
  cases hasAxis mask k with
  | true => rfl
  | false => rw [Bool.false_and, if_neg (by nofun), if_neg (by nofun)]

/-- The state that the axes of a level-2 taking enter SAFE from. -/
def State.held2 (s : State) (src : Source) : State := (s.inService .two src).writeCues (alertCues s .two)

theorem acted_two (s : State) (src : Source) :
    s.acted .two src = allAxes.foldl (safePass (affectedAxes s src)).step (s.held2 src) := by
  have hstill : progress (s.inService .two src) = false := by
    unfold progress
    rw [inService_two_ms]
    exact Bool.and_false _
  change (axesOf (affectedAxes s src)).foldl State.enterSafe ((s.inService .two src).feedCue (.alert .two)) = _
  rw [enterSafes_eq, feedCue_of_no_progress hstill, inService_two_ms]
  rfl

theorem held2_ms (s : State) (src : Source) : (s.held2 src).ms = { s.ms with holdAlert := true, cues := alertCues s .two } :=
  congrArg (fun m : Sequencer => { m with cues := alertCues s .two }) (inService_two_ms s src)

theorem held2_axes (s : State) (src : Source) : (s.held2 src).axes = s.axes := inService_axes s .two src

theorem held2_axis (s : State) (src : Source) (k : Axis) : (s.held2 src).axis k = s.axis k := by
  unfold State.axis
  rw [held2_axes]

theorem held2_sw (s : State) (src : Source) : (s.held2 src).sw = s.sw := inService_sw s .two src

theorem held2_cl (s : State) (src : Source) : (s.held2 src).cl = s.cl := inService_cl s .two src

theorem held2_le (s : State) (src : Source) : (s.held2 src).le = s.le := inService_le s .two src

theorem take_two_ms (s : State) (src : Source) :
    (s.take .two src).ms =
      { s.ms with holdAlert := true, cues := alertCues s .two, phase := (s.take .two src).ms.phase } := by
  rw [take_ms, acted_two]
  have h := congrArg State.ms ((safePass (affectedAxes s src)).foldl_eq allAxes (s.held2 src))
  exact h.trans (congrArg (fun m : Sequencer =>
    { m with phase := (allAxes.foldl (safePass (affectedAxes s src)).step (s.held2 src)).ms.phase }) (held2_ms s src))

/-- A taking at level 2 brings the affected axes in an active mode into SAFE. -/
theorem take_two_axis (s : State) (src : Source) (k : Axis) :
    (s.take .two src).axis k =
      if hasAxis (affectedAxes s src) k && isActive (s.axis k).mode then
        { withD (s.axis k) (savedFor s k) with mode := .safe, jlock := (s.axis k).j, segment := none, launch := none }
      else s.axis k := by
  have hsaved : savedFor (s.held2 src) k = savedFor s k := by
    unfold savedFor sweeping
    rw [held2_sw]
  have h := (safePass (affectedAxes s src)).foldl_axis allAxes nodup_allAxes (s.held2 src) k
  rw [if_pos (mem_allAxes k)] at h
  unfold State.axis at h ⊢
  rw [take_axes, acted_two, h]
  unfold Pass.result safePass
  rw [held2_axis, hsaved]
  rfl

theorem take_two_phase {s : State} {e : Entry} {rest : List Entry} {out : AxisSet} {ab : Bool} (hq : s.ms.queue = e :: rest)
    (hp : s.ms.phase = .waitingSegments out ab) (src : Source) :
    let gone (k : Axis) : Bool := hasAxis out k && (safePass (affectedAxes s src)).drops s e.serial k
    (s.take .two src).ms.phase = .waitingSegments (axisSetOf (fun k => hasAxis out k && !gone k)) (ab || allAxes.any gone) := by
  intro gone
  have hq' : (s.held2 src).ms.queue = e :: rest := by rw [held2_ms]; exact hq
  have hp' : (s.held2 src).ms.phase = .waitingSegments out ab := by rw [held2_ms]; exact hp
  have hdrops (k : Axis) : (safePass (affectedAxes s src)).drops (s.held2 src) e.serial k =
      (safePass (affectedAxes s src)).drops s e.serial k := by
    unfold Pass.drops
    rw [held2_axis]
  rw [take_ms, acted_two, (safePass (affectedAxes s src)).foldl_phase allAxes nodup_allAxes (s.held2 src) hq' hp']
  simp only [mem_allAxes, decide_true, Bool.true_and, hdrops]
  congr 1
  congr 1
  funext k
  change _ = (hasAxis out k && !(hasAxis out k && _))
  cases hasAxis out k <;> rfl

theorem take_two_phase_other {s : State} (h : s.ms.queue = [] ∨ ∀ out ab, s.ms.phase ≠ .waitingSegments out ab) (src : Source) :
    (s.take .two src).ms.phase = s.ms.phase := by
  have hheld : (s.held2 src).ms.queue = s.ms.queue ∧ (s.held2 src).ms.phase = s.ms.phase := by rw [held2_ms]; exact ⟨rfl, rfl⟩
  rw [take_ms, acted_two, (safePass (affectedAxes s src)).foldl_phase_other allAxes (s.held2 src) (by rw [hheld.1, hheld.2]; exact h)]
  exact hheld.2

theorem safePass_endsSweep (s : State) (src : Source) (k : Axis) :
    (safePass (affectedAxes s src)).endsSweep (s.held2 src) k =
      (sweeping s k && (hasAxis (affectedAxes s src) k && isActive (s.axis k).mode)) := by
  have hsweeping : sweeping (s.held2 src) k = sweeping s k := by
    unfold sweeping
    rw [held2_sw]
  change (sweeping (s.held2 src) k && (hasAxis (affectedAxes s src) k && isActive ((s.held2 src).axis k).mode && true)) = _
  rw [hsweeping, held2_axis, Bool.and_true]

/-- A sweep on an axis that a taking at level 2 brings into SAFE ends ABORTED, with its notice before the taking's own. -/
theorem take_two_ended {s : State} {src : Source} {k : Axis} (hk : hasAxis (affectedAxes s src) k = true)
    (ha : isActive (s.axis k).mode = true) (hs : sweeping s k = true) :
    (s.take .two src).sw = endedSweep s k ∧ (s.take .two src).cl = (endedConsole s k).offer (takenNotice s .two src) := by
  have hends : (safePass (affectedAxes s src)).endsSweep (s.held2 src) k = true := by
    rw [safePass_endsSweep, hs, hk, ha]
    rfl
  obtain ⟨hsw, hcl⟩ := (safePass (affectedAxes s src)).foldl_ended allAxes nodup_allAxes (s.held2 src) (mem_allAxes k) hends
  rw [take_sw, take_cl, acted_two, hsw, hcl]
  unfold endedSweep endedConsole
  rw [held2_sw, held2_cl, held2_le]
  exact ⟨rfl, rfl⟩

theorem take_two_still {s : State} {src : Source}
    (h : ∀ k, hasAxis (affectedAxes s src) k = true → isActive (s.axis k).mode = true → sweeping s k = false) :
    (s.take .two src).sw = s.sw ∧ (s.take .two src).cl = s.cl.offer (takenNotice s .two src) := by
  have hends (k : Axis) (_ : k ∈ allAxes) : (safePass (affectedAxes s src)).endsSweep (s.held2 src) k = false := by
    rw [safePass_endsSweep]
    cases ha : hasAxis (affectedAxes s src) k with
    | false => exact Bool.and_false _
    | true =>
      cases hm : isActive (s.axis k).mode with
      | false => exact Bool.and_false _
      | true => rw [h k ha hm]; rfl
  obtain ⟨hsw, hcl⟩ := (safePass (affectedAxes s src)).foldl_still allAxes nodup_allAxes (s.held2 src) hends
  rw [take_sw, take_cl, acted_two, hsw, hcl, held2_sw, held2_cl]
  exact ⟨rfl, rfl⟩

/-- A taking leaves everything alone but the axes, the sequencer, the sweep, the alerts, the console and a free value's count. -/
theorem take_outside (s : State) (level : Level) (src : Source) :
    s.take level src =
      { s with
        axes := (s.take level src).axes, ms := (s.take level src).ms, sw := (s.take level src).sw, alc := (s.take level src).alc
        cl := (s.take level src).cl, freeCount := (s.causeParam src).2.freeCount } := by
  have hserved : s.inService level src =
      { s with
        axes := (s.inService level src).axes, ms := (s.inService level src).ms, alc := (s.inService level src).alc
        freeCount := (s.causeParam src).2.freeCount } := by
    unfold State.inService
    rw [causeParam_eq]
    cases level <;> rfl
  have hacted : s.acted level src =
      { s with
        axes := (s.acted level src).axes, ms := (s.acted level src).ms, sw := (s.acted level src).sw
        alc := (s.acted level src).alc, cl := (s.acted level src).cl, freeCount := (s.causeParam src).2.freeCount } := by
    cases level with
    | one =>
      have h : s.acted .one src = _ := changeCues_outside (s.inService .one src) _
      rw [h, hserved]
    | two =>
      rw [acted_two, (safePass (affectedAxes s src)).foldl_eq allAxes (s.held2 src)]
      unfold State.held2
      rw [hserved]
      rfl
  rw [take_eq, clearTaken_eq, noticeTaken_eq, hacted]
  cases level <;> rfl

end Sys2Proof.Machine
end

section
/-! PROOFS. The settling of one taking at rest; ALERT_TEST. -/

namespace Sys2Proof.Machine

/-! ### Truths that a taking lets fall -/

/-- The axis has entered SAFE or keeps its mode, and the alert conditions see the same of its counts and limits. -/
structure FallingView (a b : AxisRec) : Prop where
  mode : b.mode = a.mode ∨ b.mode = .safe ∧ isActive a.mode = true
  coastCount : b.coastCount = a.coastCount := by rfl
  pinCount : b.pinCount = a.pinCount := by rfl
  satCount : b.satCount = a.satCount := by rfl
  coastLimit : b.active.coastLimit = a.active.coastLimit := by rfl
  kf : b.active.kf = a.active.kf := by rfl
  pinLimit : b.active.pinLimit = a.active.pinLimit := by rfl
  satLimit : b.active.satLimit = a.active.satLimit := by rfl

theorem FallingView.active {a b : AxisRec} (h : FallingView a b) (hb : isActive b.mode = true) : isActive a.mode = true := by
  rcases h.mode with he | ⟨-, ha⟩
  · rw [← he]; exact hb
  · exact ha

theorem FallingView.served {a b : AxisRec} (h : FallingView a b) (hb : (isActive b.mode || decide (b.mode = .safe)) = true) :
    (isActive a.mode || decide (a.mode = .safe)) = true := by
  rcases h.mode with he | ⟨-, ha⟩
  · rw [← he]; exact hb
  · rw [ha]; rfl

/-- Nothing that the alert conditions see has changed but axes that have entered SAFE. -/
structure Falling (s t : State) : Prop where
  kill : t.killAsserted = s.killAsserted
  silence : t.cl.silence = s.cl.silence
  ports : t.si = s.si
  axes : ∀ k, FallingView (s.axis k) (t.axis k)

theorem Falling.truth {s t : State} (h : Falling s t) {src : Source} (ht : conditionTruth t src = true) :
    conditionTruth s src = true := by
  obtain ⟨hkill, hsilence, hports, haxes⟩ := h
  have hstale (k : Axis) : feedbackStaleness t k = feedbackStaleness s k := by unfold feedbackStaleness; rw [hports]
  cases src with
  | kill => exact hkill.symm.trans ht
  | linkSilent => simpa only [conditionTruth, hsilence] using ht
  | horizonCoast =>
    simp only [conditionTruth, List.any_eq_true, coasts, Bool.and_eq_true] at ht ⊢
    obtain ⟨k, hk, ⟨hh, ha⟩, hc⟩ := ht
    exact ⟨k, hk, ⟨hh, (haxes k).active ha⟩, by rw [(haxes k).coastLimit, (haxes k).coastCount] at hc; exact hc⟩
  | baseStale =>
    simp only [conditionTruth, List.any_eq_true, usesBase, Bool.and_eq_true, hports] at ht ⊢
    obtain ⟨hb, k, hk, ha, hc⟩ := ht
    exact ⟨hb, k, hk, (haxes k).active ha, by rw [(haxes k).kf] at hc; exact hc⟩
  | feedbackStale k =>
    simp only [conditionTruth, Bool.and_eq_true, hstale] at ht ⊢
    exact ⟨(haxes k).served ht.1, ht.2⟩
  | pinned k =>
    simp only [conditionTruth, Bool.and_eq_true, (haxes k).pinLimit, (haxes k).pinCount] at ht ⊢
    exact ⟨(haxes k).served ht.1, ht.2⟩
  | saturated k =>
    simp only [conditionTruth, Bool.and_eq_true, (haxes k).satLimit, (haxes k).satCount] at ht ⊢
    exact ⟨(haxes k).active ht.1, ht.2⟩
  | test => exact ht
  | storeParity => exact ht
  | driveFault k => exact ht

theorem offer_silence (c : Console) (f : Frame) : (c.offer f).silence = c.silence := by
  unfold Console.offer
  split <;> rfl

theorem withD_fields (x : AxisRec) (saved : Option Nat) : withD x saved = { x with active := { x.active with d := (withD x saved).active.d } } := by
  cases saved <;> rfl

theorem falling_take_two (s : State) (src : Source) : Falling s (s.take .two src) where
  kill := by rw [take_outside]
  silence := by
    by_cases h : ∃ k, hasAxis (affectedAxes s src) k = true ∧ isActive (s.axis k).mode = true ∧ sweeping s k = true
    · obtain ⟨k, hk, ha, hs⟩ := h
      rw [(take_two_ended hk ha hs).2, offer_silence]
      exact offer_silence _ _
    · rw [(take_two_still fun k hk ha => Bool.eq_false_of_not_eq_true fun hs => h ⟨k, hk, ha, hs⟩).2, offer_silence]
  ports := by rw [take_outside]
  axes k := by
    rw [take_two_axis]
    split
    case isFalse => exact ⟨.inl rfl, rfl, rfl, rfl, rfl, rfl, rfl, rfl⟩
    case isTrue h =>
      rw [withD_fields]
      exact ⟨.inr ⟨rfl, ((Bool.and_eq_true _ _).mp h).2⟩, rfl, rfl, rfl, rfl, rfl, rfl, rfl⟩

/-- A taking leaves the recorded truths. -/
theorem truth_take (s : State) (level : Level) (src j : Source) : ((s.take level src).source j).truth = (s.source j).truth := by
  have hsources : (s.take level src).alc.sources =
      if (s.source src).latched then s.alc.sources.set src { s.source src with pending := false } else s.alc.sources := by
    rw [take_alc]
    cases level <;> rfl
  unfold State.source at hsources ⊢
  rw [hsources]
  split
  · rw [Sources.get_set]
    split
    · next h => rw [h]
    · rfl
  · rfl

theorem risings_dropFallen (s : State) : risings s.dropFallen = risings s := by
  unfold risings
  refine List.filter_congr fun src _ => ?_
  unfold risen
  rw [conditionTruth_dropFallen, source_dropFallen, fallenSource_truth]
  cases conditionTruth s src <;> simp

/-- A taking at level 2 comes to rest once the truths that fell with it are recorded: level 2 is in service and the hold stands. -/
theorem toRest_two {s : State} (hj : Judged s) {src : Source} (h : s.arbitrate = some (s.take .two src)) :
    s.toRest ⟨[], []⟩ = (s.take .two src).dropFallen := by
  have hrise : risings (s.take .two src) = [] := by
    refine List.eq_nil_iff_forall_not_mem.2 fun j hmem => ?_
    obtain ⟨ht, hf⟩ := (mem_risings _ _).1 hmem
    have htrue := ((judged_iff s).1 hj j).2 ((falling_take_two s src).truth ht)
    rw [truth_take] at hf
    rw [hf] at htrue
    cases htrue
  have hjudge : (s.take .two src).judge = ((s.take .two src).dropFallen, []) :=
    judge_of_no_rise (by rw [risings_dropFallen]; exact hrise)
  have h2 : (s.take .two src).dropFallen.alc.inService2 = true := by
    change (s.take .two src).alc.inService2 = true
    rw [take_alc]
  have hstill : progress (s.take .two src).dropFallen = false := by
    change ((s.take .two src).ms.running && !(s.take .two src).ms.holdKill && !(s.take .two src).ms.holdAlert) = false
    rw [take_two_ms]
    exact Bool.and_false _
  rw [toRest_taken hj h, hjudge]
  exact toRest_none ((settleStep_none_iff _ _).2
    ⟨(arbitrate_none_iff _).2 (.inl h2), rfl, rfl, headStep_none_of_no_progress hstill⟩)

/-- What a taking at level 1 leaves when no WAIT is there to see its cues. -/
theorem take_one_quiet {s : State} {src : Source} (h : (s.writeCues (alertCues s .one)).headStep = none) :
    (s.take .one src).ms = { s.ms with cues := alertCues s .one } := by
  rw [take_one_ms, changeCues_of_headStep h]
  rfl

theorem sameTruths_take_one (s : State) (src : Source) : SameTruths s (s.take .one src) where
  kill := by rw [take_outside]
  silence := by rw [take_one_cl, offer_silence]
  ports := by rw [take_outside]; exact ⟨fun _ => rfl, fun _ => rfl⟩
  axes k := by rw [take_one_axis]; exact {}

theorem judged_take_one {s : State} (hj : Judged s) (src : Source) : Judged (s.take .one src) := by
  rw [judged_iff] at hj ⊢
  intro j
  rw [truth_take, (sameTruths_take_one s src).truth]
  exact hj j

/-- A taking clears the pending state of its source or keeps it; the others wait as they did. -/
theorem pending_take {s : State} {level : Level} {src j : Source} (h : ((s.take level src).source j).pending = true) :
    (s.source j).pending = true ∧ ((s.take level src).source j) = s.source j := by
  have hsources : (s.take level src).alc.sources =
      if (s.source src).latched then s.alc.sources.set src { s.source src with pending := false } else s.alc.sources := by
    rw [take_alc]
    cases level <;> rfl
  unfold State.source at h hsources ⊢
  rw [hsources] at h ⊢
  split at h
  case isTrue hl =>
    rw [if_pos hl, Sources.get_set]
    rw [Sources.get_set] at h
    split at h
    · cases h
    · next hne => rw [if_neg hne]; exact ⟨h, rfl⟩
  case isFalse hl =>
    rw [if_neg hl]
    exact ⟨h, rfl⟩

theorem firstWaiting_take {s : State} {l level : Level} {src : Source} (h : firstWaiting s l = none) :
    firstWaiting (s.take level src) l = none := by
  rw [firstWaiting_none_iff] at h ⊢
  intro j ⟨hp, he, hl⟩
  obtain ⟨hpending, hsame⟩ := pending_take hp
  rw [hsame] at he hl
  exact h j ⟨hpending, he, hl⟩

/-- A taking at level 1 that the head does not see comes to rest at once. -/
theorem toRest_one {s : State} (hj : Judged s) {src : Source} (h : s.arbitrate = some (s.take .one src))
    (h2 : firstWaiting s .two = none) (hhead : (s.writeCues (alertCues s .one)).headStep = none) :
    s.toRest ⟨[], []⟩ = s.take .one src := by
  have hjudged := judged_take_one hj src
  have h1 : (s.take .one src).alc.inService1 = true := by rw [take_alc]
  have hhead' : (s.take .one src).headStep = none := by
    refine SameHead.headStep_none (s := s.writeCues (alertCues s .one)) ⟨?_, ?_, ?_, ?_⟩ hhead
    case refine_4 => unfold progress; rw [take_one_quiet hhead]; rfl
    all_goals rw [take_one_quiet hhead]; rfl
  rw [toRest_taken hj h, judge_atRest hjudged.1 hjudged.2]
  exact toRest_none ((settleStep_none_iff _ _).2
    ⟨(arbitrate_none_iff _).2 (.inr ⟨firstWaiting_take h2, .inl h1⟩), rfl, rfl, hhead'⟩)

/-! ### What stays once level 1 is in service -/

/-- The head's moves leave every DAMP flag. -/
theorem damp_headStep {s t : State} (h : s.headStep = some t) (k : Axis) : (t.axis k).damp = (s.axis k).damp := by
  have hretire (u : State) (o : EntryOutcome) : (u.retire o).axis k = u.axis k := by
    unfold State.retire
    split <;> rfl
  have hwait (mask : Byte) (any consume : Bool) : (s.retireWait mask any consume).axis k = s.axis k := by
    rw [retireWait_eq]
    exact hretire _ _
  have hlaunch {e : Entry} {rest : List Entry} (hq : s.ms.queue = e :: rest) (hp : s.ms.phase = .pending) (dn : Nat) (shape : Shape)
      (endMode : EndMode) (wait : Bool) : ((s.beginLaunch e dn shape endMode wait).axis k).damp = (s.axis k).damp := by
    have hlaunched : ((s.launchedAll e dn shape endMode).axis k).damp = (s.axis k).damp := by
      unfold State.launchedAll State.axis
      dsimp only
      rw [Five.get_mapAxis]
      split <;> rfl
    unfold State.beginLaunch
    rw [foldl_launchAxis_all e dn shape endMode s hp]
    dsimp only
    split
    · rw [hretire]; exact hlaunched
    · split
      · exact hlaunched
      · rw [hretire]; exact hlaunched
  obtain ⟨-, e, rest, hq, ⟨hp, rfl⟩ | ⟨left, mask, any, consume, timeout, -, -, -, rfl⟩ | ⟨aborted, -, rfl⟩⟩ := headStep_cases h
  · cases hb : e.body with
    | mode mask target =>
      rw [beginEntry_mode hb, hretire, Pass.foldl_axis _ allAxes nodup_allAxes, if_pos (mem_allAxes k), modePass_result]
      split
      · exact makeTransition_damp s k target
      · rfl
    | _ =>
      unfold State.beginEntry
      rw [hb]
      dsimp only
      first
        | exact hlaunch hq hp _ _ _ _
        | rfl
        | (rw [hretire]; rfl)
        | (split <;> [rw [hwait]; rfl])
  · rw [hwait]
  · rw [hretire]

/-- A source that a judging or a condition's rise makes pending. -/
def Due.Spontaneous (d : Due) : Prop := ∃ src, d = .condition src ∧ src ≠ .test

theorem spontaneous_risings {s : State} {d : Due} (h : d ∈ s.judge.2.map Due.condition) : d.Spontaneous := by
  obtain ⟨src, hsrc, rfl⟩ := List.mem_map.1 h
  refine ⟨src, rfl, ?_⟩
  rintro rfl
  exact absurd ((mem_risings _ _).1 (show Source.test ∈ risings s.dropFallen from hsrc)).1 (by nofun)

/-- A move of a settling takes a level, moves the head, or makes one of the waiting sources pending. -/
theorem settleStep_waiting {w w' : Waiting} {s t : State} (h : settleStep w s = some (w', t)) :
    w'.own ⊆ w.own ∧ w'.due ⊆ w.due ∧
      (s.arbitrate = some t ∨ s.headStep = some t ∨ ∃ d ∈ w.own ++ w.due, ∃ n, t = (s.choose n).2.markDue d) := by
  have hpick (d : Due) (ds : List Due) : (s.pickDue d ds).1 ∈ d :: ds ∧ (s.pickDue d ds).2.1 ⊆ d :: ds := by
    refine ⟨?_, fun x hx => List.mem_of_mem_eraseIdx hx⟩
    unfold State.pickDue
    dsimp only
    cases hi : (d :: ds)[(s.choose (ds.length + 1)).1]? with
    | none => exact List.mem_cons_self ..
    | some x => exact List.mem_of_getElem? hi
  unfold settleStep at h
  split at h
  · next u hu =>
    obtain ⟨rfl, rfl⟩ := Prod.mk.inj (Option.some.inj h)
    exact ⟨List.Subset.refl _, List.Subset.refl _, .inl hu⟩
  · split at h
    · next d ds hown =>
      obtain ⟨rfl, rfl⟩ := Prod.mk.inj (Option.some.inj h)
      obtain ⟨hmem, hsub⟩ := hpick d ds
      exact ⟨by rw [hown]; exact hsub, List.Subset.refl _,
        .inr (.inr ⟨_, List.mem_append_left _ (by rw [hown]; exact hmem), _, rfl⟩)⟩
    · split at h
      · next u _ hu =>
        obtain ⟨rfl, rfl⟩ := Prod.mk.inj (Option.some.inj h)
        exact ⟨List.Subset.refl _, List.Subset.refl _, .inr (.inl hu)⟩
      · unfold dueStep at h
        split at h
        · next d ds hdue =>
          obtain ⟨rfl, rfl⟩ := Prod.mk.inj (Option.some.inj h)
          obtain ⟨hmem, hsub⟩ := hpick d ds
          exact ⟨List.Subset.refl _, by rw [hdue]; exact hsub,
            .inr (.inr ⟨_, List.mem_append_right _ (by rw [hdue]; exact hmem), _, rfl⟩)⟩
        · obtain ⟨u, hu, he⟩ := Option.map_eq_some_iff.mp h
          obtain ⟨rfl, rfl⟩ := Prod.mk.inj he
          exact ⟨List.Subset.refl _, List.Subset.refl _, .inr (.inl hu)⟩

/-- TEST has been taken at level 1, and the level is in service with its records. -/
structure TestServed (cause : Cause) (link : Five Bool) (damp : Axis → Bool) (t : State) : Prop where
  inService : t.alc.inService1 = true
  cause1 : t.alc.cause1 = some cause
  link1 : t.alc.link1 = some link
  seen : t.alc.seen1 = true
  pending : (t.source .test).pending = false
  damp : ∀ k, (t.axis k).damp = damp k

section
variable {cause : Cause} {link : Five Bool} {damp : Axis → Bool} {s : State}

theorem TestServed.sources {x : Sources SourceState} (h : TestServed cause link damp s) (hx : (x.get .test).pending = false) :
    TestServed cause link damp { s with alc := { s.alc with sources := x } } :=
  ⟨h.inService, h.cause1, h.link1, h.seen, hx, h.damp⟩

theorem pending_judge {src : Source} (h : (s.source src).pending = false) : (s.judge.1.source src).pending = false := by
  have hfallen : (fallenSource s src (s.source src)).pending = false := by
    unfold fallenSource
    split
    · exact (congrArg (· && _) h).trans rfl
    · exact h
  change (((risings s.dropFallen).foldl State.recordRise s.dropFallen).source src).pending = false
  rw [source_recordRises, source_dropFallen]
  split
  · exact hfallen
  · exact hfallen

theorem TestServed.judge (h : TestServed cause link damp s) : TestServed cause link damp s.judge.1 := by
  rw [judge_eq]
  exact h.sources (pending_judge h.pending)

theorem TestServed.markDue (h : TestServed cause link damp s) (n : Nat) {d : Due} (hd : d.Spontaneous) :
    TestServed cause link damp ((s.choose n).2.markDue d) := by
  obtain ⟨src, rfl, hne⟩ := hd
  have hchoose : TestServed cause link damp (s.choose n).2 := by
    rw [choose_eq]
    exact ⟨h.inService, h.cause1, h.link1, h.seen, h.pending, h.damp⟩
  refine hchoose.sources ?_
  rw [Sources.get_set, if_neg (Ne.symm hne)]
  exact hchoose.pending

theorem TestServed.arbitrate (h : TestServed cause link damp s) {t : State} (ht : s.arbitrate = some t) :
    TestServed cause link damp t := by
  rcases arbitrate_cases ht with ⟨-, src, -, rfl⟩ | ⟨-, h1, -⟩
  · have halc := take_alc s .two src
    refine ⟨?_, ?_, ?_, ?_, ?_, fun k => ?_⟩
    · rw [halc]; exact h.inService
    · rw [halc]; exact h.cause1
    · rw [halc]; exact h.link1
    · rw [halc]; exact h.seen
    · refine Bool.eq_false_of_not_eq_true fun hp => ?_
      exact absurd (pending_take hp).1 (by rw [h.pending]; nofun)
    · rw [take_two_axis, ← h.damp k]
      split
      · rw [withD_fields]
      · rfl
  · rw [h.inService] at h1
    cases h1

theorem TestServed.headStep (h : TestServed cause link damp s) {t : State} (ht : s.headStep = some t) :
    TestServed cause link damp t := by
  have halc := (headStep_work ht).1.alc
  refine ⟨by rw [halc]; exact h.inService, by rw [halc]; exact h.cause1, by rw [halc]; exact h.link1, by rw [halc]; exact h.seen, ?_,
    fun k => (damp_headStep ht k).trans (h.damp k)⟩
  unfold State.source
  rw [halc]
  exact h.pending

theorem TestServed.settleLoop (n : Nat) (w : Waiting) (hw : ∀ d ∈ w.own ++ w.due, d.Spontaneous)
    (h : TestServed cause link damp s) : TestServed cause link damp (settleLoop n w s) := by
  induction n generalizing w s with
  | zero => exact h
  | succ n ih =>
    unfold Machine.settleLoop
    split
    · next p hp =>
      obtain ⟨hown, hdue, hmove⟩ := settleStep_waiting (w' := p.1) (t := p.2) hp
      refine ih _ (fun d hd => ?_) ?_
      · unfold Waiting.judged stillDues at hd
        simp only [List.mem_append, List.mem_filter] at hd
        rcases hd with ⟨hd | hd, -⟩ | ⟨hd, -⟩
        · exact spontaneous_risings hd
        · exact hw d (List.mem_append_left _ (hown hd))
        · exact hw d (List.mem_append_right _ (hdue hd))
      · refine TestServed.judge ?_
        rcases hmove with ha | hh | ⟨d, hd, m, he⟩
        · exact h.arbitrate ha
        · exact h.headStep hh
        · rw [he]; exact h.markDue m (hw d hd)
    · exact h

theorem TestServed.toRest (h : TestServed cause link damp s) : TestServed cause link damp (s.toRest ⟨[], []⟩) :=
  h.settleLoop _ _ nofun

end

/-! ### ALERT_TEST (R155) -/

/-- TEST has become pending with the request's mask and parameter. -/
def State.testRaised (s : State) (mask : AxisSet) (param : Half) : State :=
  (s.setTestMask mask).markDue (.raised .test param)

theorem testRaised_eq (s : State) (mask : AxisSet) (param : Half) :
    s.testRaised mask param =
      { s with
        alc :=
          { s.alc with
            testMask := mask, sources := s.alc.sources.set .test { s.source .test with pending := true, param := param } } } := rfl

theorem source_testRaised (s : State) (mask : AxisSet) (param : Half) :
    (s.testRaised mask param).source .test = { s.source .test with pending := true, param := param } := rfl

theorem AtRest.setTestMask {s : State} (h : AtRest s) (mask : AxisSet) : AtRest (s.setTestMask mask) := h.same {} {}

theorem settle_testRaised {s : State} (h : AtRest s) (mask : AxisSet) (param : Half) :
    (s.setTestMask mask).settle [.raised .test param] = (s.testRaised mask param).toRest ⟨[], []⟩ := by
  have hrest := h.setTestMask mask
  rw [settle_raised ⟨hrest.1, hrest.2.1⟩, toRest_due hrest]
  rfl

theorem judged_testRaised {s : State} (h : AtRest s) (mask : AxisSet) (param : Half) : Judged (s.testRaised mask param) :=
  judged_markDue (s := s.setTestMask mask) ⟨(h.setTestMask mask).1, (h.setTestMask mask).2.1⟩ 1 (.raised .test param)

section
variable {s : State} (h : AtRest s) (mask : AxisSet) (param : Half)
include h

theorem settle_test_waits (hw : (s.source .test).enable = false ∨ s.alc.inService2 = true ∨
    ((s.source .test).level = .one ∧ s.alc.inService1 = true)) :
    (s.setTestMask mask).settle [.raised .test param] = s.testRaised mask param := by
  have hrest := h.setTestMask mask
  rw [settle_testRaised h]
  exact toRest_atRest (atRest_markDue hrest (arbitrate_markDue_waits hrest.2.2.1 hw))

theorem settle_test_two (he : (s.source .test).enable = true) (h2 : s.alc.inService2 = false)
    (hl : (s.source .test).level = .two) :
    (s.setTestMask mask).settle [.raised .test param] = ((s.testRaised mask param).take .two .test).dropFallen := by
  rw [settle_testRaised h]
  exact toRest_two (judged_testRaised h mask param)
    (arbitrate_markDue_two (d := .raised .test param) (h.setTestMask mask).2.2.1 he hl h2)

theorem arbitrate_test_one (he : (s.source .test).enable = true) (h2 : s.alc.inService2 = false) (h1 : s.alc.inService1 = false)
    (hl : (s.source .test).level = .one) :
    (s.testRaised mask param).arbitrate = some ((s.testRaised mask param).take .one .test) :=
  arbitrate_markDue_one (d := .raised .test param) (h.setTestMask mask).2.2.1 he hl h2 h1

/-- The taking at level 1 and what follows it. -/
theorem settle_test_one (he : (s.source .test).enable = true) (h2 : s.alc.inService2 = false) (h1 : s.alc.inService1 = false)
    (hl : (s.source .test).level = .one) :
    (s.setTestMask mask).settle [.raised .test param] = ((s.testRaised mask param).take .one .test).toRest ⟨[], []⟩ := by
  have hj := judged_testRaised h mask param
  have htaken := judged_take_one hj .test
  rw [settle_testRaised h, toRest_taken hj (arbitrate_test_one h mask param he h2 h1 hl), judge_atRest htaken.1 htaken.2]
  rfl

/-- The taking at level 1, where no WAIT sees its cues. -/
theorem settle_test_one_quiet (he : (s.source .test).enable = true) (h2 : s.alc.inService2 = false) (h1 : s.alc.inService1 = false)
    (hl : (s.source .test).level = .one) (hq : (∀ n, s.ms.phase ≠ .waitingCue n) ∨ progress s = false) :
    (s.setTestMask mask).settle [.raised .test param] = (s.testRaised mask param).take .one .test ∧
      ((s.testRaised mask param).take .one .test).ms = { s.ms with cues := alertCues s .one } := by
  have hrest := h.setTestMask mask
  have hj := judged_testRaised h mask param
  have hhead : ((s.testRaised mask param).writeCues (alertCues s .one)).headStep = none :=
    SameHead.headStep_none (s := s.writeCues (alertCues s .one)) {} (h.writeCues hq _).2.2.2
  obtain ⟨hw2, -⟩ := ((arbitrate_none_iff _).1 hrest.2.2.1).resolve_left (by rw [show (s.setTestMask mask).alc.inService2 = _ from h2]; nofun)
  have htwo : firstWaiting (s.testRaised mask param) .two = none :=
    (firstWaiting_markDue hw2 (.raised .test param)).trans (if_neg fun hx => by cases hl.symm.trans hx.2)
  refine ⟨?_, take_one_quiet hhead⟩
  rw [settle_testRaised h]
  exact toRest_one hj (arbitrate_test_one h mask param he h2 h1 hl) htwo hhead

end

theorem testServed_taken {s : State} (mask : AxisSet) (param : Half) (hl : (s.source .test).latched = true) :
    TestServed ⟨.test, .one, mask, param, s.le.frameNo⟩ (s.axes.mapAxis (fun _ b => b.damp))
      (fun k => (s.axis k).damp || hasAxis mask k) ((s.testRaised mask param).take .one .test) := by
  have halc := take_alc (s.testRaised mask param) .one .test
  have hlatched : ((s.testRaised mask param).source .test).latched = true := hl
  rw [if_pos hlatched] at halc
  refine ⟨by rw [halc], by rw [halc]; rfl, by rw [halc]; rfl, by rw [halc], ?_, fun k => ?_⟩
  · unfold State.source
    rw [halc]
    rfl
  · rw [take_one_axis]
    rfl

/-- The record of an axis that enters SAFE, a sweep on it ended. -/
def safeRecord (s : State) (k : Axis) : AxisRec :=
  { s.axis k with
    mode := .safe, jlock := (s.axis k).j, segment := none, launch := none
    active := if sweeping s k then { (s.axis k).active with d := s.sw.savedD } else (s.axis k).active }

/-- The axis that a TEST at level 2 leaves. -/
theorem take_test_two_axis (s : State) (mask : AxisSet) (param : Half) (k : Axis) :
    ((s.testRaised mask param).take .two .test).axis k =
      if hasAxis mask k && isActive (s.axis k).mode then safeRecord s k else s.axis k := by
  rw [take_two_axis]
  change (if hasAxis mask k && isActive (s.axis k).mode then
    { withD (s.axis k) (savedFor s k) with mode := .safe, jlock := (s.axis k).j, segment := none, launch := none } else s.axis k) = _
  unfold safeRecord savedFor
  cases sweeping s k <;> rfl

/-- The Alert Controller after a taking of TEST, its sources aside. -/
theorem take_test_alc (s : State) (mask : AxisSet) (param : Half) (level : Level) :
    let t := (s.testRaised mask param).take level .test
    t.alc =
      match level with
      | .one =>
        { s.alc with
          sources := t.alc.sources, testMask := mask, seen1 := true, inService1 := true
          cause1 := some ⟨.test, .one, mask, param, s.le.frameNo⟩, link1 := some (s.axes.mapAxis (fun _ b => b.damp)) }
      | .two =>
        { s.alc with
          sources := t.alc.sources, testMask := mask, seen2 := true, inService2 := true
          cause2 := some ⟨.test, .two, mask, param, s.le.frameNo⟩, link2 := some (s.axes.mapAxis (fun _ b => b.mode)) } := by
  intro t
  have halc : t.alc = _ := take_alc (s.testRaised mask param) level .test
  cases level with
  | one => rw [halc]; rfl
  | two => rw [halc]; rfl

theorem take_test_pending {s : State} (mask : AxisSet) (param : Half) (level : Level) (hl : (s.source .test).latched = true) :
    (((s.testRaised mask param).take level .test).source .test).pending = false := by
  have hlatched : ((s.testRaised mask param).source .test).latched = true := hl
  have halc := take_alc (s.testRaised mask param) level .test
  rw [if_pos hlatched] at halc
  unfold State.source
  rw [halc]
  cases level <;> rfl

theorem take_test_outside (s : State) (mask : AxisSet) (param : Half) (level : Level) :
    let t := (s.testRaised mask param).take level .test
    t = { s with axes := t.axes, ms := t.ms, sw := t.sw, alc := t.alc, cl := t.cl } :=
  take_outside (s.testRaised mask param) level .test

theorem take_test_notice (s : State) {mask : Byte} (h : mask.toNat < 32) (param : Half) (level : Level) :
    takenNotice (s.testRaised (axisSet mask) param) level .test =
      ⟨0x48, 0, wordBytes s.le.frameNo ++ [levelByte level, 0, mask] ++ halfBytes param⟩ := by
  have hbyte : axisSetByte (axisSet mask) = mask := by
    change (mask.setWidth 5).setWidth 8 = mask
    bv_omega
  change (⟨0x48, 0, wordBytes s.le.frameNo ++ [levelByte level, 0, axisSetByte (axisSet mask)] ++ halfBytes param⟩ : Frame) = _
  rw [hbyte]

theorem safePass_drops (s : State) (mask : AxisSet) (serial : Half) (k : Axis) :
    (safePass mask).drops s serial k =
      (hasAxis mask k && isActive (s.axis k).mode &&
        (decide ((s.axis k).segment.map Segment.serial = some serial) ||
          decide ((s.axis k).launch.map Segment.serial = some serial))) := rfl

/-- What ALERT_TEST leaves of a state at rest when TEST is taken at level 2. -/
structure TestAtTwo (s : State) (mask : Byte) (param : Half) (t : State) : Prop where
  outside : t = { s with axes := t.axes, ms := t.ms, sw := t.sw, alc := t.alc, cl := t.cl }
  alc : t.alc =
    { s.alc with
      sources := t.alc.sources, testMask := mask.setWidth 5, seen2 := true, inService2 := true
      cause2 := some ⟨.test, .two, mask.setWidth 5, param, s.le.frameNo⟩, link2 := some (s.axes.mapAxis (fun _ b => b.mode)) }
  pending : (t.source .test).pending = false
  ms : t.ms = { s.ms with holdAlert := true, cues := alertCues s .two, phase := t.ms.phase }
  axis : ∀ k, t.axis k = if mask.getLsbD (axisIndex k) && isActive (s.axis k).mode then safeRecord s k else s.axis k
  phase : ∀ head rest out ab, s.ms.queue = head :: rest → s.ms.phase = .waitingSegments out ab →
    let gone (k : Axis) : Bool :=
      hasAxis out k && (mask.getLsbD (axisIndex k) && isActive (s.axis k).mode) &&
        (decide ((s.axis k).segment.map Segment.serial = some head.serial) ||
          decide ((s.axis k).launch.map Segment.serial = some head.serial))
    t.ms.phase = .waitingSegments (axisSetOf (fun k => hasAxis out k && !gone k)) (ab || allAxes.any gone)
  phaseOther : s.ms.queue = [] ∨ (∀ out ab, s.ms.phase ≠ .waitingSegments out ab) → t.ms.phase = s.ms.phase
  ended : ∀ k, (mask.getLsbD (axisIndex k) && isActive (s.axis k).mode) = true → sweeping s k = true →
    t.sw = endedSweep s k ∧
      t.cl = (endedConsole s k).offer ⟨0x48, 0, wordBytes s.le.frameNo ++ [2, 0, mask] ++ halfBytes param⟩
  still : (∀ k, (mask.getLsbD (axisIndex k) && isActive (s.axis k).mode) = true → sweeping s k = false) →
    t.sw = s.sw ∧ t.cl = s.cl.offer ⟨0x48, 0, wordBytes s.le.frameNo ++ [2, 0, mask] ++ halfBytes param⟩

theorem testAtTwo_taken {s : State} {mask : Byte} (hm : mask.toNat < 32) (param : Half) (hl : (s.source .test).latched = true) :
    TestAtTwo s mask param ((s.testRaised (axisSet mask) param).take .two .test) where
  outside := take_test_outside s (axisSet mask) param .two
  alc := take_test_alc s (axisSet mask) param .two
  pending := take_test_pending (axisSet mask) param .two hl
  ms := take_two_ms (s.testRaised (axisSet mask) param) .test
  axis k := by rw [take_test_two_axis, hasAxis_axisSet]
  phase head rest out ab hq hp := by
    intro gone
    refine (take_two_phase (s := s.testRaised (axisSet mask) param) hq hp .test).trans ?_
    have hgone (k : Axis) :
        (hasAxis out k && (safePass (axisSet mask)).drops (s.testRaised (axisSet mask) param) head.serial k) = gone k := by
      rw [safePass_drops, hasAxis_axisSet, ← Bool.and_assoc]
      rfl
    change HeadPhase.waitingSegments (axisSetOf fun k => hasAxis out k &&
      !(hasAxis out k && (safePass (axisSet mask)).drops (s.testRaised (axisSet mask) param) head.serial k))
      (ab || allAxes.any fun k => hasAxis out k && (safePass (axisSet mask)).drops (s.testRaised (axisSet mask) param) head.serial k) = _
    simp only [hgone]
  phaseOther h := take_two_phase_other (s := s.testRaised (axisSet mask) param) h .test
  ended k hk hw := by
    obtain ⟨hmask, hact⟩ := (Bool.and_eq_true _ _).mp hk
    rw [← hasAxis_axisSet] at hmask
    obtain ⟨hsw, hcl⟩ := take_two_ended (s := s.testRaised (axisSet mask) param) (src := .test) hmask hact hw
    rw [take_test_notice s hm param .two] at hcl
    exact ⟨hsw, hcl⟩
  still h := by
    obtain ⟨hsw, hcl⟩ := take_two_still (s := s.testRaised (axisSet mask) param) (src := .test) fun k hk ha =>
      h k ((Bool.and_eq_true _ _).mpr ⟨(hasAxis_axisSet mask k).symm.trans hk, ha⟩)
    rw [take_test_notice s hm param .two] at hcl
    exact ⟨hsw, hcl⟩

theorem TestAtTwo.dropFallen {s t : State} {mask : Byte} {param : Half} (h : TestAtTwo s mask param t) :
    TestAtTwo s mask param t.dropFallen where
  outside := congrArg (fun u : State => { u with alc := t.dropFallen.alc }) h.outside
  alc := congrArg (fun x : Alerts => { x with sources := t.dropFallen.alc.sources }) h.alc
  pending := by
    rw [source_dropFallen]
    unfold fallenSource
    split
    · exact (congrArg (· && _) h.pending).trans rfl
    · exact h.pending
  ms := h.ms
  axis := h.axis
  phase := h.phase
  phaseOther := h.phaseOther
  ended := h.ended
  still := h.still

/-- What a taking of TEST at level 1 leaves where no WAIT sees its cues. -/
theorem take_test_one_quiet {s : State} {mask : Byte} (hm : mask.toNat < 32) (param : Half)
    (hms : ((s.testRaised (axisSet mask) param).take .one .test).ms = { s.ms with cues := alertCues s .one }) :
    let t := (s.testRaised (axisSet mask) param).take .one .test
    t =
      { s with
        axes := t.axes, ms := { s.ms with cues := alertCues s .one }, alc := t.alc
        cl := s.cl.offer ⟨0x48, 0, wordBytes s.le.frameNo ++ [1, 0, mask] ++ halfBytes param⟩ } := by
  intro t
  have hsw : t.sw = s.sw := take_one_sw (s.testRaised (axisSet mask) param) .test
  have hcl : t.cl = s.cl.offer ⟨0x48, 0, wordBytes s.le.frameNo ++ [1, 0, mask] ++ halfBytes param⟩ :=
    (take_one_cl (s.testRaised (axisSet mask) param) .test).trans
      (congrArg s.cl.offer (take_test_notice s hm param .one))
  have hout : t = _ := take_test_outside s (axisSet mask) param .one
  rw [hms, hsw, hcl] at hout
  exact hout

/-- The DAMP flags alone change. -/
theorem take_test_one_axis (s : State) (mask : AxisSet) (param : Half) (k : Axis) :
    ((s.testRaised mask param).take .one .test).axis k = { s.axis k with damp := (s.axis k).damp || hasAxis mask k } :=
  take_one_axis (s.testRaised mask param) .test k

/-- ALERT_TEST's answer (R155). -/
theorem exec_alertTest {s t : State} (h : Serving s) {tag mask : Byte} {param : Half} (hm : mask.toNat < 32)
    (ht : (s.arrived.setTestMask (axisSet mask)).settle [.raised .test param] = t) :
    exec (.alertTest tag mask param) s = .next (t.deliver ⟨0xA3, tag, [0]⟩) := by
  have hserved : serveRule s.arrived (.alertTest mask param) = done t :=
    (if_pos ((maskInFive_iff mask).2 hm)).trans (congrArg done ht)
  exact exec_served (r := .alertTest mask param) h hserved

/-- Settles O47: TEST waits, or its taking by `TestAtTwo` and `TestServed`; at level 1 what follows leaves it. -/
theorem alertTestIsTaken : Obligations.AlertTestIsTaken := by
  refine ⟨fun tag mask param s hs hlatched => ?_, fun s src => ⟨take_one_ms s src, take_two_ms s src⟩⟩
  intro a x answer reply frame notice cues
  have hr : AtRest a := hs.1.arrived
  refine ⟨fun hm => ?_, fun hm hw => ?_, fun hm he h2 hl => ?_, fun hm he h2 h1 hl => ?_⟩
  · have hserved : serveRule a (.alertTest mask param) = refused a .range :=
      if_neg fun e => Nat.not_lt.2 hm ((maskInFive_iff mask).1 e)
    exact exec_served (r := .alertTest mask param) hs hserved
  · exact exec_alertTest hs hm (settle_test_waits (s := a) hr (axisSet mask) param hw)
  · intro enters
    have hanswer := exec_alertTest (tag := tag) hs hm (settle_test_two (s := a) hr (axisSet mask) param he h2 hl)
    have htaken := (testAtTwo_taken (s := a) hm param hlatched).dropFallen
    revert hanswer htaken
    generalize ((a.testRaised (axisSet mask) param).take .two .test).dropFallen = t
    intro hanswer htaken
    refine ⟨t, hanswer, htaken.outside, by rw [htaken.alc], by rw [htaken.alc]; rfl, by rw [htaken.alc]; rfl, by rw [htaken.alc],
      htaken.pending, by rw [htaken.alc], htaken.ms,
      fun k => ⟨fun hk => (htaken.axis k).trans (if_pos hk), fun hk => (htaken.axis k).trans (if_neg ?_)⟩, htaken.phase,
      htaken.phaseOther, fun k hk hw => ?_, fun hno => ?_⟩
    · rw [show (mask.getLsbD (axisIndex k) && isActive (a.axis k).mode) = false from hk]; nofun
    · rw [offerUnasked_eq, offerUnasked_eq]
      exact htaken.ended k hk hw
    · rw [offerUnasked_eq]
      exact htaken.still hno
  · have hanswer := exec_alertTest (tag := tag) hs hm (settle_test_one (s := a) hr (axisSet mask) param he h2 h1 hl)
    have hkept := (testServed_taken (s := a) (axisSet mask) param hlatched).toRest
    have hcalm (hq : (∀ n, s.ms.phase ≠ .waitingCue n) ∨ progress s = false) := by
      obtain ⟨hsettled, hms⟩ := settle_test_one_quiet (s := a) hr (axisSet mask) param he h2 h1 hl hq
      exact And.intro ((settle_test_one (s := a) hr (axisSet mask) param he h2 h1 hl).symm.trans hsettled)
        (take_test_one_quiet (s := a) hm param hms)
    have haxis := take_test_one_axis a (axisSet mask) param
    have halc := take_test_alc a (axisSet mask) param .one
    revert hanswer hkept hcalm haxis halc
    generalize (a.testRaised (axisSet mask) param).take .one .test = u
    intro hanswer hkept hcalm haxis halc
    have htwo : u.alc.inService2 = false := by rw [halc]; exact h2
    have hdamp (k : Axis) : u.axis k = { s.axis k with damp := (u.axis k).damp } := by rw [haxis]; rfl
    refine ⟨u.toRest ⟨[], []⟩, hanswer, hkept.inService, fun hp => ?_, hkept.cause1, hkept.link1, hkept.seen, hkept.pending,
      fun k => ⟨?_, fun hp => ?_⟩, fun hq => ?_⟩
    · rw [(hcalm (.inr hp)).1]
      exact htwo
    · rw [hkept.damp k, hasAxis_axisSet]
      rfl
    · rw [(hcalm (.inr hp)).1]
      exact hdamp k
    · obtain ⟨hrest, hout⟩ := hcalm hq
      rw [hrest, offerUnasked_eq]
      exact ⟨hout, htwo, hdamp⟩

end Sys2Proof.Machine
end

section
/-! PROOFS. RESOLVE: what the link record gives back, and what waits behind it. -/

namespace Sys2Proof.Machine

/-! ### Which source a level takes (R145) -/

theorem sourceNumbers_ascend : allSources.Pairwise (fun a b => sourceNumber a < sourceNumber b) := by decide

/-- The waiting source of the lowest number is the one that a level takes. -/
theorem firstWaiting_of_lowest {s : State} {l : Level} {src : Source}
    (h : (s.source src).pending = true ∧ (s.source src).enable = true ∧ (s.source src).level = l)
    (hlow : ∀ q, (s.source q).pending = true ∧ (s.source q).enable = true ∧ (s.source q).level = l → sourceNumber src ≤ sourceNumber q) :
    firstWaiting s l = some src := by
  cases hw : firstWaiting s l with
  | none => exact absurd h ((firstWaiting_none_iff s l).1 hw src)
  | some x =>
    obtain ⟨hx, front, back, hlist, hfront⟩ := List.find?_eq_some_iff_append.1 hw
    simp only [Bool.and_eq_true, decide_eq_true_eq, and_assoc] at hx
    have hle := hlow x hx
    have hsorted := sourceNumbers_ascend
    rw [hlist, List.pairwise_append] at hsorted
    have hmem := mem_allSources src
    rw [hlist, List.mem_append, List.mem_cons] at hmem
    rcases hmem with hin | rfl | hin
    · obtain ⟨hp, he, hl⟩ := h
      have hno := hfront src hin
      simp [hp, he, hl] at hno
    · rfl
    · exact absurd ((List.pairwise_cons.1 hsorted.2.1).1 src hin) (Nat.not_lt.2 hle)

/-! ### The truths brought up to the state (R152 step 1) -/

theorem refreshTruths_eq (s : State) :
    s.refreshTruths = { s with alc := { s.alc with sources := s.refreshTruths.alc.sources } } := by
  have hmarks (l : List Source) (t : State) : l.foldl (fun s q => s.markDue (.condition q)) t =
      { t with alc := { t.alc with sources := (l.foldl (fun s q => s.markDue (.condition q)) t).alc.sources } } := by
    induction l generalizing t with
    | nil => rfl
    | cons q l ih => exact (ih _).trans rfl
  have hrefresh := hmarks s.judge.2 s.judge.1
  change s.refreshTruths = { s.judge.1 with alc := { s.judge.1.alc with sources := s.refreshTruths.alc.sources } } at hrefresh
  rw [judge_eq] at hrefresh
  exact hrefresh

theorem source_markDues (l : List Source) (s : State) (src : Source) :
    (l.foldl (fun s q => s.markDue (.condition q)) s).source src =
      if src ∈ l then { s.source src with pending := true } else s.source src := by
  induction l generalizing s with
  | nil => rfl
  | cons q l ih =>
    rw [List.foldl_cons, ih]
    simp only [State.markDue, source_setSource, List.mem_cons]
    by_cases hq : src = q <;> by_cases hl : src ∈ l <;> simp [hq, hl]

/-- Every truth is the state's, and what has risen is pending. -/
theorem source_refreshTruths (s : State) (src : Source) :
    (s.refreshTruths.source src).truth = conditionTruth s src ∧
      (s.refreshTruths.source src).pending =
        if conditionTruth s src && !(s.source src).truth then true
        else if (s.source src).truth && !conditionTruth s src then (s.source src).pending && (s.source src).latched
        else (s.source src).pending := by
  have hjudged := truth_judge s src
  have hsource := source_markDues s.judge.2 s.judge.1 src
  change s.refreshTruths.source src = _ at hsource
  have hrisen : src ∈ s.judge.2 ↔ conditionTruth s src = true ∧ (s.source src).truth = false := by
    change src ∈ risings s.dropFallen ↔ _
    rw [risings_dropFallen, mem_risings]
  have hpending : (s.judge.1.source src).pending = (fallenSource s src (s.source src)).pending := by
    change (((risings s.dropFallen).foldl State.recordRise s.dropFallen).source src).pending = _
    rw [source_recordRises, source_dropFallen]
    split <;> rfl
  constructor
  · rw [hsource]
    split <;> exact hjudged
  · rw [hsource]
    by_cases hr : src ∈ s.judge.2
    · obtain ⟨hc, ht⟩ := hrisen.1 hr
      rw [if_pos hr, hc, ht]
      rfl
    · have hno : ¬(conditionTruth s src && !(s.source src).truth) = true := by
        rw [Bool.and_eq_true, Bool.not_eq_true']
        exact fun h => hr (hrisen.2 h)
      rw [if_neg hr, if_neg hno, hpending]
      unfold fallenSource
      split <;> rfl

theorem judged_refreshTruths (s : State) : Judged s.refreshTruths := by
  rw [judged_iff]
  intro src
  have htruth : conditionTruth s.refreshTruths src = conditionTruth s src := by
    rw [refreshTruths_eq]
    exact conditionTruth_alc s _ src
  rw [(source_refreshTruths s src).1, htruth]
  exact ⟨id, id⟩

/-! ### Level 1 (R153) -/

theorem resolvedDamp_eq {s : State} {c : Cause} {saved : Five Bool} (hc : s.alc.cause1 = some c) (hl : s.alc.link1 = some saved)
    (k : Axis) (d : Bool) : resolvedDamp s k d = if hasAxis c.mask k && d then saved.get k else d := by
  unfold resolvedDamp
  rw [hc, hl]

/-- Level 1 leaves service with nothing behind it. -/
theorem atRest_freed1 {s : State} (h : AtRest s) (hquiet : ∀ src, ¬((s.source src).pending = true ∧ (s.source src).enable = true)) :
    AtRest s.restoreDamp.endService1 := by
  obtain ⟨hd, hr, -, hhead⟩ := h
  have htruths : SameTruths s s.restoreDamp.endService1 :=
    { axes := fun k => by
        change SameView (s.axis k) ((s.axes.mapAxis _).get k)
        rw [Five.get_mapAxis]
        exact {} }
  have hjudged := judged_of_same (s := s) (t := s.restoreDamp.endService1) rfl htruths ⟨hd, hr⟩
  have hnone (l : Level) : firstWaiting s.restoreDamp.endService1 l = none :=
    (firstWaiting_none_iff _ _).2 fun src ⟨hp, he, _⟩ => hquiet src ⟨hp, he⟩
  exact ⟨hjudged.1, hjudged.2, (arbitrate_none_iff _).2 (.inr ⟨hnone _, .inr (hnone _)⟩), SameHead.headStep_none {} hhead⟩

/-! ### Level 2 (R152) -/

/-- The axes that a level-2 resolve returns, as its records tell. -/
def returns (c : Cause) (saved : Five Mode) (k : Axis) (x : AxisRec) : Bool :=
  hasAxis c.mask k && isActive (saved.get k) && decide (x.mode = .safe)

/-- The record of an axis that returns from SAFE (R29). -/
def returnedRecord (saved : Five Mode) (k : Axis) (x : AxisRec) : AxisRec :=
  let mode : Mode := if saved.get k = .move then .hold else saved.get k
  { x with
    mode := mode, t := x.w, i := 0, uPrev := 0, rdEff := 0, rdTarget := 0, satFlag := .none, pinState := .none
    satCount := 0, pinCount := 0, coastCount := 0, o := if mode = .follow then x.w - x.f else x.o }

theorem enterFromInactive_restored (saved : Five Mode) (k : Axis) (x : AxisRec) :
    enterFromInactive x (restoredMode (saved.get k)) = returnedRecord saved k x := by
  change enterFromInactive x (if saved.get k = .move then .hold else saved.get k) = _
  unfold returnedRecord
  dsimp only
  by_cases hf : (if saved.get k = .move then Mode.hold else saved.get k) = .follow
  · rw [hf, if_pos rfl, ← ofInt_wrapDiff]
    rfl
  · rw [if_neg hf]
    exact if_neg hf

/-- The state once the axes of a level-2 resolve have returned. -/
def State.returned2 (s : State) (c : Cause) (saved : Five Mode) : State :=
  { s with axes := s.axes.mapAxis (fun k x => if returns c saved k x then returnedRecord saved k x else x) }

/-- The joint angle and DAMP stay when an axis returns. -/
theorem returned2_axis (s : State) (c : Cause) (saved : Five Mode) (k : Axis) :
    ((s.returned2 c saved).axis k).j = (s.axis k).j ∧ ((s.returned2 c saved).axis k).damp = (s.axis k).damp := by
  unfold State.returned2 State.axis
  dsimp only
  rw [Five.get_mapAxis]
  split <;> exact ⟨rfl, rfl⟩

theorem foldl_returnAxis {s : State} {c : Cause} {saved : Five Mode} (hc : s.alc.cause2 = some c) (hl : s.alc.link2 = some saved) :
    (axesOf (returningAxes s)).foldl State.returnAxis s = s.returned2 c saved ∧
      returningAxes s = axisSetOf (fun k => returns c saved k (s.axis k)) := by
  have hset : returningAxes s = axisSetOf (fun k => returns c saved k (s.axis k)) := by
    unfold returningAxes
    rw [hc, hl]
    rfl
  refine ⟨?_, hset⟩
  let f (t : State) (k : Axis) : State := if hasAxis (returningAxes s) k then t.returnFromSafe k (saved.get k) else t
  have hout (l : List Axis) : l.foldl f s = { s with axes := (l.foldl f s).axes } :=
    keeps_foldl (P := fun t => t = { s with axes := t.axes }) (fun t k ht => by
      have hstep : f t k = { t with axes := (f t k).axes } := by
        simp only [f]
        split <;> rfl
      exact hstep.trans (congrArg (fun u : State => { u with axes := (f t k).axes }) ht)) l s rfl
  have hfold : (axesOf (returningAxes s)).foldl State.returnAxis s = allAxes.foldl f s := by
    unfold axesOf
    rw [List.foldl_filter]
    have hlink (l : List Axis) (t : State) (ht : t.alc = s.alc) :
        l.foldl (fun t k => if hasAxis (returningAxes s) k = true then t.returnAxis k else t) t = l.foldl f t := by
      induction l generalizing t with
      | nil => rfl
      | cons k l ih =>
        have hstep : (if hasAxis (returningAxes s) k = true then t.returnAxis k else t) = f t k := by
          have hret : t.returnAxis k = t.returnFromSafe k (saved.get k) := by
            unfold State.returnAxis
            rw [ht, hl]
          rw [hret]
        rw [List.foldl_cons, List.foldl_cons, hstep]
        refine ih _ ?_
        change (if _ then _ else t).alc = _
        split
        · exact ht
        · exact ht
    exact hlink allAxes s rfl
  rw [hfold, hout]
  refine congrArg (fun x => ({ s with axes := x } : State)) (Five.ext_get fun k => ?_)
  have haxis := (foldl_ofAxes (f := f) State.axis
    (fun j x y => y = if hasAxis (returningAxes s) j then enterFromInactive x (restoredMode (saved.get j)) else x)
    (fun t j i hij => by
      change (if _ then _ else t).axis i = _
      split
      · exact axis_setAxis_other _ hij _
      · rfl)
    (fun t j => by
      change (if _ then _ else t).axis j = _
      split
      · exact State.axis_setAxis_same _ _ _
      · rfl) allAxes nodup_allAxes s k).1 (mem_allAxes k)
  refine haxis.trans ?_
  rw [Five.get_mapAxis, hset, hasAxis_axisSetOf, enterFromInactive_restored]
  rfl

/-- The truths are judged, and level 2 is free. -/
def State.freed2 (s : State) : State := s.refreshTruths.endService2

theorem judged_freed2 (s : State) : Judged s.freed2 :=
  judged_of_same (s := s.refreshTruths) rfl {} (judged_refreshTruths s)

theorem resolve2_eq {s : State} {c : Cause} {saved : Five Mode} (hc : s.alc.cause2 = some c) (hl : s.alc.link2 = some saved) :
    s.resolve2 =
      let t := (s.returned2 c saved).freed2.toRest ⟨[], []⟩
      if t.alc.inService2 then t else (t.setHoldAlert false).settle [] := by
  unfold State.resolve2
  rw [(foldl_returnAxis hc hl).1]
  dsimp only
  rw [← settle_judged (judged_freed2 (s.returned2 c saved))]
  rfl

theorem freed2_eq (s : State) :
    s.freed2 = { s with alc := { s.alc with sources := s.refreshTruths.alc.sources, inService2 := false } } := by
  unfold State.freed2
  rw [refreshTruths_eq]
  rfl

/-- A source waits for a level. -/
def waitsFor (s : State) (l : Level) (src : Source) : Prop :=
  (s.source src).pending = true ∧ (s.source src).enable = true ∧ (s.source src).level = l

/-- A level-2 source that waits is taken at once. -/
theorem toRest_freed2_two {s : State} {src : Source} (h : waitsFor s.refreshTruths .two src)
    (hlow : ∀ q, waitsFor s.refreshTruths .two q → sourceNumber src ≤ sourceNumber q) :
    s.freed2.toRest ⟨[], []⟩ = (s.freed2.take .two src).dropFallen := by
  have hfirst : firstWaiting s.freed2 .two = some src := firstWaiting_of_lowest (s := s.freed2) h hlow
  refine toRest_two (judged_freed2 s) ?_
  unfold State.arbitrate
  rw [hfirst]
  rfl

section
variable {s : State} (hhold : s.ms.holdAlert = true)
include hhold

theorem freed2_still : progress s.freed2 = false := by
  rw [freed2_eq]
  change (s.ms.running && !s.ms.holdKill && !s.ms.holdAlert) = false
  rw [hhold]
  exact Bool.and_false _

/-- Nothing that waits can be taken. -/
theorem toRest_freed2_none (h2 : ∀ src, ¬waitsFor s.refreshTruths .two src)
    (h1 : (∀ src, ¬waitsFor s.refreshTruths .one src) ∨ s.alc.inService1 = true) : s.freed2.toRest ⟨[], []⟩ = s.freed2 := by
  have hnone {l : Level} (h : ∀ src, ¬waitsFor s.refreshTruths l src) : firstWaiting s.freed2 l = none :=
    (firstWaiting_none_iff _ _).2 h
  have hserved : s.freed2.alc.inService1 = s.alc.inService1 := by rw [freed2_eq]
  refine toRest_none ((settleStep_none_iff _ _).2 ⟨(arbitrate_none_iff _).2 (.inr ⟨hnone h2, ?_⟩), rfl, rfl,
    headStep_none_of_no_progress (freed2_still hhold)⟩)
  exact h1.symm.imp (hserved.trans ·) hnone

/-- A level-1 source that waits is taken if its level is free. -/
theorem toRest_freed2_one {src : Source} (h2 : ∀ q, ¬waitsFor s.refreshTruths .two q) (h : waitsFor s.refreshTruths .one src)
    (hlow : ∀ q, waitsFor s.refreshTruths .one q → sourceNumber src ≤ sourceNumber q) (h1 : s.alc.inService1 = false) :
    s.freed2.toRest ⟨[], []⟩ = s.freed2.take .one src ∧ (s.freed2.take .one src).ms = { s.ms with cues := alertCues s .one } := by
  have htwo : firstWaiting s.freed2 .two = none := (firstWaiting_none_iff _ _).2 h2
  have hone : firstWaiting s.freed2 .one = some src := firstWaiting_of_lowest (s := s.freed2) h hlow
  have hserved : s.freed2.alc.inService1 = false := by rw [freed2_eq]; exact h1
  have hms : s.freed2.ms = s.ms := by rw [freed2_eq]
  have hhead : (s.freed2.writeCues (alertCues s.freed2 .one)).headStep = none :=
    headStep_none_of_no_progress (freed2_still hhold)
  have harb : s.freed2.arbitrate = some (s.freed2.take .one src) := by
    unfold State.arbitrate
    rw [htwo, hone, hserved]
    rfl
  refine ⟨toRest_one (judged_freed2 s) harb htwo hhead, (take_one_quiet hhead).trans ?_⟩
  unfold alertCues
  rw [hms]

end

theorem affectedAxes_freed2 (s : State) (src : Source) : affectedAxes s.freed2 src = affectedAxes s.refreshTruths src := by
  cases src <;> rfl

/-- Without the run flag nothing moves once both levels' waits are settled. -/
theorem atRest_freed2_unheld {s : State} (hrun : s.ms.running = false)
    (h : s.freed2.toRest ⟨[], []⟩ = s.freed2) : (s.freed2.setHoldAlert false).settle [] = s.freed2.setHoldAlert false := by
  have hrest : AtRest s.freed2 := by
    rw [← h, ← settle_judged (judged_freed2 s)]
    exact atRest_settle s.freed2 (by simp)
  have hms : s.freed2.ms = s.ms := by rw [freed2_eq]
  refine settle_atRest (hrest.of_headStep (headStep_none_of_no_progress ?_) {})
  change (s.freed2.ms.running && !s.freed2.ms.holdKill && !false) = false
  rw [hms, hrun]
  rfl

/-- What a level-2 source that is taken behind a resolve leaves. -/
theorem taken_freed2_two (s : State) (src : Source) :
    let t := (s.freed2.take .two src).dropFallen
    t.ms = { s.ms with holdAlert := true, cues := alertCues s.freed2 .two, phase := t.ms.phase } ∧ t.alc.inService2 = true ∧
      t.alc.inService1 = s.alc.inService1 ∧ t.alc.seen2 = true ∧
      t.alc.cause2 = some ⟨src, .two, affectedAxes s.refreshTruths src, (s.freed2.causeParam src).1, s.le.frameNo⟩ ∧
      t.alc.link2 = some (s.axes.mapAxis (fun _ x => x.mode)) ∧
      ∀ k, hasAxis (affectedAxes s.refreshTruths src) k = true → isActive (s.axis k).mode = true →
        (t.axis k).mode = .safe ∧ (t.axis k).jlock = (s.axis k).j := by
  intro t
  have heq := freed2_eq s
  have halc := take_alc s.freed2 .two src
  have hms : s.freed2.ms = s.ms := (congrArg State.ms heq).trans rfl
  have hle : s.freed2.le = s.le := (congrArg State.le heq).trans rfl
  have haxes : s.freed2.axes = s.axes := (congrArg State.axes heq).trans rfl
  have hserv : s.freed2.alc.inService1 = s.alc.inService1 := (congrArg (fun t : State => t.alc.inService1) heq).trans rfl
  refine ⟨?_, congrArg Alerts.inService2 halc, (congrArg Alerts.inService1 halc).trans hserv, congrArg Alerts.seen2 halc, ?_, ?_,
    fun k hk ha => ?_⟩
  · have htwo := take_two_ms s.freed2 src
    change (s.freed2.take .two src).ms = _
    rw [htwo, hms]
    rfl
  · refine (congrArg Alerts.cause2 halc).trans ?_
    change some (takenCause s.freed2 .two src) = _
    unfold takenCause
    rw [affectedAxes_freed2, hle]
  · refine (congrArg Alerts.link2 halc).trans ?_
    change some (s.freed2.axes.mapAxis (fun _ x => x.mode)) = _
    rw [haxes]
  · have haxis : t.axis k = _ := take_two_axis s.freed2 src k
    have hsame : s.freed2.axis k = s.axis k := congrArg (fun x : Five AxisRec => x.get k) haxes
    rw [affectedAxes_freed2, hsame, hk, ha] at haxis
    rw [haxis.trans (if_pos rfl)]
    exact ⟨rfl, rfl⟩

/-- What a level-1 source that is taken behind a resolve leaves. -/
theorem taken_freed2_one (s : State) (src : Source) :
    let t := s.freed2.take .one src
    t.alc.inService2 = false ∧ t.alc.inService1 = true ∧ t.alc.seen1 = true ∧
      t.alc.cause1 = some ⟨src, .one, affectedAxes s.refreshTruths src, (s.freed2.causeParam src).1, s.le.frameNo⟩ ∧
      t.alc.link1 = some (s.axes.mapAxis (fun _ x => x.damp)) ∧
      ∀ k, t.axis k = { s.axis k with damp := (s.axis k).damp || hasAxis (affectedAxes s.refreshTruths src) k } := by
  intro t
  have heq := freed2_eq s
  have halc := take_alc s.freed2 .one src
  have hle : s.freed2.le = s.le := (congrArg State.le heq).trans rfl
  have haxes : s.freed2.axes = s.axes := (congrArg State.axes heq).trans rfl
  have hserv : s.freed2.alc.inService2 = false := (congrArg (fun t : State => t.alc.inService2) heq).trans rfl
  refine ⟨(congrArg Alerts.inService2 halc).trans hserv, congrArg Alerts.inService1 halc, congrArg Alerts.seen1 halc, ?_, ?_,
    fun k => ?_⟩
  · refine (congrArg Alerts.cause1 halc).trans ?_
    change some (takenCause s.freed2 .one src) = _
    unfold takenCause
    rw [affectedAxes_freed2, hle]
  · refine (congrArg Alerts.link1 halc).trans ?_
    change some (s.freed2.axes.mapAxis (fun _ x => x.damp)) = _
    rw [haxes]
  · have haxis : t.axis k = _ := take_one_axis s.freed2 src k
    have hsame : s.freed2.axis k = s.axis k := congrArg (fun x : Five AxisRec => x.get k) haxes
    rw [affectedAxes_freed2, hsame] at haxis
    exact haxis

theorem exec_resolveLevel2 {s : State} (h : Serving s) {tag : Byte} (h2 : s.alc.inService2 = true) :
    exec (.resolveLevel2 tag) s =
      .next (s.arrived.resolve2.deliver ⟨0xA2, tag, [0, axisSetByte (returningAxes s.arrived)]⟩) := by
  have hserved : serveRule s.arrived (.resolve 2) = ⟨s.arrived.resolve2, .ok, [axisSetByte (returningAxes s.arrived)]⟩ := if_pos h2
  exact exec_served (r := .resolve 2) h hserved

/-- Settles O48: level 1 by its flags; level 2 by what the truths, once judged, let be taken. -/
theorem resolveRestoresTheLinkRecord : Obligations.ResolveRestoresTheLinkRecord := by
  intro tag s hs a quiet
  refine ⟨fun x h1 h2 => ?_, fun h1 => ?_, fun h2 => ?_, fun c saved h1 hc hl => ?_, fun c saved h2 hc hl => ?_⟩
  · have hserved : serveRule a (.resolve x) = refused a .range := by
      change serveResolve a x = _
      unfold serveResolve
      split
      · exact absurd (BitVec.eq_of_toNat_eq (y := 1) ‹_›) h1
      · exact absurd (BitVec.eq_of_toNat_eq (y := 2) ‹_›) h2
      · rfl
    exact exec_served (r := .resolve x) hs hserved
  · have hserved : serveRule a (.resolve 1) = refused a .state := if_neg (by rw [show a.alc.inService1 = _ from h1]; nofun)
    exact exec_served (r := .resolve 1) hs hserved
  · have hserved : serveRule a (.resolve 2) = refused a .state := if_neg (by rw [show a.alc.inService2 = _ from h2]; nofun)
    exact exec_served (r := .resolve 2) hs hserved
  · intro damp freed
    have hdamp (k : Axis) : resolvedDamp a k (s.axis k).damp = damp k := resolvedDamp_eq (s := a) hc hl k _
    have hfreed : a.restoreDamp.endService1 = freed := by
      refine congrArg (fun x => ({ a with axes := x, alc := { s.alc with inService1 := false } } : State)) (Five.ext_get fun k => ?_)
      refine (Five.get_mapAxis _ _ _).trans ?_
      rw [Five.get_mapAxis]
      exact congrArg (fun d => ({ s.axis k with damp := d } : AxisRec)) (hdamp k)
    have hcleared : clearedDamp a = axisSetOf (fun k => (s.axis k).damp && !damp k) := by
      unfold clearedDamp
      exact congrArg axisSetOf (funext fun k => congrArg (fun d => (s.axis k).damp && !d) (hdamp k))
    have hserved : serveRule a (.resolve 1) = ⟨a.restoreDamp.endService1.settle [], .ok, [axisSetByte (clearedDamp a)]⟩ := if_pos h1
    rw [hfreed, hcleared] at hserved
    refine ⟨exec_served (r := .resolve 1) hs hserved, fun hq => ?_⟩
    rw [← hfreed]
    exact settle_atRest (atRest_freed1 (s := a) hs.1.arrived hq)
  · intro back mode axes returned judged waits lowest reply
    have hreturned : a.returned2 c saved = returned := rfl
    have hresolve := resolve2_eq (s := a) hc hl
    have hanswer := exec_resolveLevel2 (tag := tag) hs h2
    rw [hresolve, (foldl_returnAxis (s := a) hc hl).2, hreturned] at hanswer
    refine ⟨refreshTruths_eq returned, source_refreshTruths returned, fun hhold => ⟨fun hno2 hno1 => ?_, fun src hlow => ?_,
      fun src hno2 hlow h1 => ?_⟩⟩
    · intro freed
      have hrest := toRest_freed2_none (s := returned) hhold hno2 hno1
      have hfreed : returned.freed2.setHoldAlert false = freed := by
        have hms : judged.ms = s.ms := (congrArg State.ms (refreshTruths_eq returned)).trans rfl
        exact congrArg (fun m : Sequencer => ({ judged with
          ms := { m with holdAlert := false }, alc := { judged.alc with inService2 := false } } : State)) hms
      have hserv : returned.freed2.alc.inService2 = false := rfl
      dsimp only at hanswer
      rw [hrest, hserv, if_neg (by nofun), hfreed] at hanswer
      refine ⟨hanswer, fun hrun => ?_⟩
      rw [← hfreed]
      exact atRest_freed2_unheld (s := returned) hrun hrest
    · have hrest := toRest_freed2_two (s := returned) hlow.1 hlow.2
      have htaken := taken_freed2_two returned src
      dsimp only at hanswer
      rw [hrest] at hanswer
      revert hanswer htaken
      generalize (returned.freed2.take .two src).dropFallen = t
      rintro hanswer ⟨hms, hserv2, hserv1, hseen, hcause, hlink, haxis⟩
      rw [hserv2, if_pos rfl] at hanswer
      refine ⟨t, hanswer, hserv2, hserv1, hseen, by rw [hms], ⟨_, hcause⟩, hlink, fun k hk ha => ?_, by rw [hms]; rfl, by rw [hms]; rfl⟩
      obtain ⟨hmode, hjlock⟩ := haxis k hk ha
      exact ⟨hmode, hjlock.trans (returned2_axis a c saved k).1⟩
    · obtain ⟨hrest, hms⟩ := toRest_freed2_one (s := returned) hhold hno2 hlow.1 hlow.2 h1
      have htaken := taken_freed2_one returned src
      dsimp only at hanswer
      rw [hrest] at hanswer
      revert htaken
      revert hms
      revert hanswer
      generalize returned.freed2.take .one src = t
      rintro hanswer hms ⟨hserv2, hserv1, hseen, hcause, hlink, haxis⟩
      rw [hserv2, if_neg (by nofun)] at hanswer
      have hdamp (k : Axis) : (returned.axis k).damp = (s.axis k).damp := (returned2_axis a c saved k).2
      have hdamps : returned.axes.mapAxis (fun _ x => x.damp) = s.axes.mapAxis (fun _ x => x.damp) :=
        Five.ext_get fun k =>
          (Five.get_mapAxis _ _ _).trans ((hdamp k).trans (Five.get_mapAxis (fun _ x => AxisRec.damp x) s.axes k).symm)
      refine ⟨t, hanswer, hserv2, hserv1, hseen, ⟨_, hcause⟩, hlink.trans (congrArg some hdamps), fun k => ?_, by rw [hms]; rfl,
        by rw [hms]; rfl⟩
      rw [haxis k, hdamp k]
      rfl

end Sys2Proof.Machine
end

section
/-! PROOFS. Staleness: what the alert conditions present, their axes and parameters; an expiry and the condition it takes. -/

namespace Sys2Proof.Machine

/-! ### The conditions, spelled out (R65, R139, R140) -/

theorem isActive_iff (m : Mode) : isActive m = true ↔ m ∈ [Mode.hold, .rate, .follow, .move] := by cases m <;> decide

theorem isHeading_false_iff (k : Axis) : isHeading k = false ↔ k = .lift ∨ k = .tilt ∨ k = .roll := by cases k <;> decide

theorem coasts_iff (s : State) (k : Axis) :
    coasts s k = true ↔
      (k = .lift ∨ k = .tilt ∨ k = .roll) ∧ (s.axis k).mode ∈ [Mode.hold, .rate, .follow, .move] ∧
        (s.axis k).active.coastLimit ≤ (s.axis k).coastCount.toNat := by
  simp only [coasts, Bool.and_eq_true, Bool.not_eq_true', decide_eq_true_eq, isHeading_false_iff, isActive_iff, and_assoc]

theorem usesBase_iff (s : State) (k : Axis) :
    usesBase s k = true ↔ (s.axis k).mode ∈ [Mode.hold, .rate, .follow, .move] ∧ (s.axis k).active.kf ≠ 0 := by
  simp only [usesBase, Bool.and_eq_true, decide_eq_true_eq, isActive_iff]

theorem hasAxis_all (k : Axis) : hasAxis 31 k = true := by cases k <;> decide

theorem hasAxis_empty (k : Axis) : hasAxis 0 k = false := by cases k <;> decide

theorem hasAxis_set_iff (p : Axis → Bool) (k : Axis) : hasAxis (axisSetOf p) k = true ↔ p k = true := by rw [hasAxis_axisSetOf]

theorem any_allAxes (p : Axis → Bool) : allAxes.any p = true ↔ ∃ k, p k = true := by
  rw [List.any_eq_true]
  exact exists_congr fun k => and_iff_right (mem_allAxes k)

/-- The feedback unit or the encoder of the axis is stale. -/
theorem feedbackStaleness_eq_zero_iff (s : State) (k : Axis) :
    feedbackStaleness s k = 0 ↔ (s.si.sen.get (feedbackUnit k)).fresh = true ∧ (s.si.enc.get k).fresh = true := by
  unfold feedbackStaleness
  cases (s.si.sen.get (feedbackUnit k)).fresh <;> cases (s.si.enc.get k).fresh <;> decide

theorem foldl_max_bound (l : List Nat) (m : Nat) (h : ∀ x ∈ l, x ≤ m) : l.foldl max m = m := by
  induction l with
  | nil => rfl
  | cons x l ih =>
    rw [List.foldl_cons, Nat.max_eq_left (h x (List.mem_cons_self ..))]
    exact ih fun y hy => h y (List.mem_cons_of_mem _ hy)

theorem foldl_max_of_greatest {l : List Nat} {m : Nat} (hm : m ∈ l) (h : ∀ x ∈ l, x ≤ m) (b : Nat) (hb : b ≤ m) :
    l.foldl max b = m := by
  induction l generalizing b with
  | nil => cases hm
  | cons x l ih =>
    have hx := h x (List.mem_cons_self ..)
    have htail : ∀ y ∈ l, y ≤ m := fun y hy => h y (List.mem_cons_of_mem _ hy)
    rw [List.foldl_cons]
    rcases List.mem_cons.1 hm with rfl | hin
    · rw [Nat.max_eq_right hb]
      exact foldl_max_bound l m htail
    · exact ih hin htail _ (Nat.max_le.2 ⟨hb, hx⟩)

/-- The greatest coast count is that of a coasting axis that none exceeds. -/
theorem greatestCoast_eq {s : State} {k : Axis} (hk : coasts s k = true)
    (h : ∀ q, coasts s q = true → (s.axis q).coastCount.toNat ≤ (s.axis k).coastCount.toNat) :
    greatestCoast s = (s.axis k).coastCount := by
  have hfold : ((allAxes.filter (coasts s)).map (fun k => (s.axis k).coastCount.toNat)).foldl max 0 = (s.axis k).coastCount.toNat := by
    refine foldl_max_of_greatest (List.mem_map_of_mem (List.mem_filter.2 ⟨mem_allAxes k, hk⟩)) (fun x hx => ?_) 0 (Nat.zero_le _)
    obtain ⟨q, hq, rfl⟩ := List.mem_map.1 hx
    exact h q (List.mem_filter.1 hq).2
  unfold greatestCoast
  rw [hfold]
  exact BitVec.ofNat_toNat _ _ |>.trans (BitVec.setWidth_eq _)

/-! ### One condition rises at rest -/

theorem filter_only {p : Source → Bool} {src : Source} (h : ∀ j, p j = true ↔ j = src) : allSources.filter p = [src] := by
  have hp : p = (· == src) := funext fun j => Bool.eq_iff_iff.2 ((h j).trans beq_iff_eq.symm)
  rw [hp, List.filter_beq, List.count_eq_one_of_mem nodup_allSources (mem_allSources src)]
  rfl

/-- One condition has risen since a state at rest; nothing else that the alerts and the head see has changed. -/
structure RisesAlone (s t : State) (src : Source) : Prop where
  alc : t.alc = s.alc := by rfl
  head : SameHead s t := by exact {}
  before : conditionTruth s src = false
  now : conditionTruth t src = true
  others : ∀ j, j ≠ src → conditionTruth t j = conditionTruth s j

section
variable {s t : State} {src : Source} (hr : AtRest s) (h : RisesAlone s t src)
include hr h

theorem RisesAlone.judge : t.judge = (t.recordRise src, [src]) := by
  have hj := (judged_iff s).1 ⟨hr.1, hr.2.1⟩
  have hsource (j : Source) : t.source j = s.source j := by unfold State.source; rw [h.alc]
  have hdrop : t.dropFallen = t := by
    have hx : t.alc.sources.mapSource (fallenSource t) = t.alc.sources := by
      refine Sources.ext_get fun j => ?_
      rw [Sources.get_mapSource]
      unfold fallenSource
      refine if_neg fun e => ?_
      obtain ⟨ht, hc⟩ := (Bool.and_eq_true _ _).mp e
      have htrue : conditionTruth t j = true := by
        by_cases hjs : j = src
        · rw [hjs]; exact h.now
        · rw [h.others j hjs]
          refine (hj j).1 ?_
          rw [← hsource j]
          exact ht
      rw [htrue] at hc
      cases hc
    unfold State.dropFallen
    rw [hx]
  have hrise : risings t = [src] := by
    refine filter_only fun j => ?_
    unfold risen
    rw [Bool.and_eq_true, Bool.not_eq_true', hsource j]
    constructor
    · rintro ⟨hc, hf⟩
      by_contra hne
      rw [h.others j hne] at hc
      rw [(hj j).2 hc] at hf
      cases hf
    · rintro rfl
      refine ⟨h.now, Bool.eq_false_of_not_eq_true fun ht => ?_⟩
      have := (hj j).1 ht
      rw [h.before] at this
      cases this
  unfold State.judge
  rw [hdrop]
  dsimp only
  rw [hrise]
  rfl

theorem RisesAlone.atRest : AtRest (t.recordRise src) := by
  have hjudged := judged_judge t
  rw [h.judge hr] at hjudged
  have hsource (j : Source) : let x := (t.recordRise src).source j
      x.pending = (s.source j).pending ∧ x.enable = (s.source j).enable ∧ x.level = (s.source j).level := by
    intro x
    have hx : x = if j = src then { t.source src with truth := true } else t.source j := source_recordRise t src j
    have hsame (q : Source) : t.source q = s.source q := by unfold State.source; rw [h.alc]
    rw [hx]
    split
    · next he => subst he; rw [hsame j]; exact ⟨rfl, rfl, rfl⟩
    · rw [hsame j]; exact ⟨rfl, rfl, rfl⟩
  have hfirst (l : Level) (hw : firstWaiting s l = none) : firstWaiting (t.recordRise src) l = none := by
    rw [firstWaiting_none_iff] at hw ⊢
    intro j
    obtain ⟨hp, he, hl⟩ := hsource j
    rw [hp, he, hl]
    exact hw j
  have hserved : (t.recordRise src).alc.inService1 = s.alc.inService1 ∧ (t.recordRise src).alc.inService2 = s.alc.inService2 :=
    ⟨show t.alc.inService1 = _ by rw [h.alc], show t.alc.inService2 = _ by rw [h.alc]⟩
  have harb : (t.recordRise src).arbitrate = none := by
    rw [arbitrate_none_iff, hserved.1, hserved.2]
    exact ((arbitrate_none_iff s).1 hr.2.2.1).imp_right fun ⟨h2, h1⟩ => ⟨hfirst _ h2, h1.imp_right (hfirst _)⟩
  exact ⟨hjudged.1, hjudged.2, harb, SameHead.headStep_none (s := t) {} (h.head.headStep_none hr.2.2.2)⟩

/-- What has risen becomes pending, and the rest follows. -/
theorem RisesAlone.settle : t.settle [] = ((t.recordRise src).markDue (.condition src)).toRest ⟨[], []⟩ := by
  have hdue : stillDues (t.recordRise src) [.condition src] = [.condition src] := by
    unfold stillDues stillDue
    rw [List.filter_cons_of_pos, List.filter_nil]
    dsimp only
    rw [source_recordRise, if_pos rfl, Bool.or_true]
  rw [settle_eq t (by simp), h.judge hr]
  change (t.recordRise src).toRest ⟨[], stillDues (t.recordRise src) [.condition src]⟩ = _
  rw [hdue, toRest_due (h.atRest hr)]

omit hr in
theorem RisesAlone.source_rise : (t.recordRise src).source src = { s.source src with truth := true } := by
  have hsame : t.source src = s.source src := by unfold State.source; rw [h.alc]
  rw [source_recordRise, if_pos rfl, hsame]

theorem RisesAlone.judged_due : Judged ((t.recordRise src).markDue (.condition src)) :=
  judged_markDue ⟨(h.atRest hr).1, (h.atRest hr).2.1⟩ 1 (.condition src)

/-- The condition is taken at level 2. -/
theorem RisesAlone.settle_two (he : (s.source src).enable = true) (hl : (s.source src).level = .two)
    (h2 : s.alc.inService2 = false) :
    t.settle [] = (((t.recordRise src).markDue (.condition src)).take .two src).dropFallen := by
  have hsource := h.source_rise
  have h2' : (t.recordRise src).alc.inService2 = false := show t.alc.inService2 = false by rw [h.alc]; exact h2
  rw [h.settle hr]
  exact toRest_two (h.judged_due hr) (arbitrate_markDue_two (d := .condition src) (h.atRest hr).2.2.1
    ((congrArg SourceState.enable hsource).trans he) ((congrArg SourceState.level hsource).trans hl) h2')

/-- The condition is taken at level 1, while no progress is allowed. -/
theorem RisesAlone.settle_one (he : (s.source src).enable = true) (hl : (s.source src).level = .one)
    (h2 : s.alc.inService2 = false) (h1 : s.alc.inService1 = false) (hp : progress t = false) :
    t.settle [] = ((t.recordRise src).markDue (.condition src)).take .one src := by
  have hsource := h.source_rise
  have hlevel : ((t.recordRise src).source src).level = .one := (congrArg SourceState.level hsource).trans hl
  have h2' : (t.recordRise src).alc.inService2 = false := show t.alc.inService2 = false by rw [h.alc]; exact h2
  have h1' : (t.recordRise src).alc.inService1 = false := show t.alc.inService1 = false by rw [h.alc]; exact h1
  obtain ⟨hw2, -⟩ := ((arbitrate_none_iff _).1 (h.atRest hr).2.2.1).resolve_left (by rw [h2']; nofun)
  have htwo : firstWaiting ((t.recordRise src).markDue (.condition src)) .two = none :=
    (firstWaiting_markDue hw2 (.condition src)).trans (if_neg fun e => by cases hlevel.symm.trans e.2)
  rw [h.settle hr]
  exact toRest_one (h.judged_due hr) (arbitrate_markDue_one (d := .condition src) (h.atRest hr).2.2.1
    ((congrArg SourceState.enable hsource).trans he) hlevel h2' h1') htwo (headStep_none_of_no_progress hp)

end

/-- The truth that has risen stays recorded when its source is taken. -/
theorem truth_due (t : State) (src : Source) : (((t.recordRise src).markDue (.condition src)).source src).truth = true := by
  rw [truth_markDue, source_recordRise, if_pos rfl]

/-! ### Staleness expiries (R6, R139) -/

theorem feedbackUnit_ne_base (k : Axis) : feedbackUnit k ≠ .base := by cases k <;> decide

/-- BASE becoming stale lets BASE_STALE alone rise. -/
theorem risesAlone_base {s : State} (hb : s.si.sen.base.fresh = true) {q : Axis} (hq : usesBase s q = true) :
    RisesAlone s (s.makeStale (.sen .base)) .baseStale where
  before := by
    change (!s.si.sen.base.fresh && _) = false
    rw [hb]
    rfl
  now := by
    change (!((s.si.sen.set .base { s.si.sen.base with fresh := false, elapsed := 0 }).get .base).fresh && allAxes.any (usesBase s)) = true
    rw [Three.get_set_same, (any_allAxes _).2 ⟨q, hq⟩]
    rfl
  others j hj := by
    cases j with
    | baseStale => exact absurd rfl hj
    | feedbackStale k =>
      have hunit : ((s.makeStale (.sen .base)).si.sen.get (feedbackUnit k)) = s.si.sen.get (feedbackUnit k) := by
        change (s.si.sen.set .base _).get (feedbackUnit k) = _
        rw [Three.get_set, if_neg (feedbackUnit_ne_base k)]
      have hstale : feedbackStaleness (s.makeStale (.sen .base)) k = feedbackStaleness s k := by
        unfold feedbackStaleness
        rw [hunit]
        rfl
      simp only [conditionTruth, hstale]
      rfl
    | _ => rfl

/-- An encoder becoming stale, its unit being fresh, lets its FEEDBACK_STALE alone rise. -/
theorem risesAlone_encoder {s : State} {k : Axis} (he : (s.si.enc.get k).fresh = true)
    (hu : (s.si.sen.get (feedbackUnit k)).fresh = true) (ha : isActive (s.axis k).mode = true) :
    RisesAlone s (s.makeStale (.enc k)) (.feedbackStale k) ∧ feedbackStaleness (s.makeStale (.enc k)) k = 2 := by
  have hnow : feedbackStaleness (s.makeStale (.enc k)) k = 2 := by
    change (if (s.si.sen.get (feedbackUnit k)).fresh then 0 else 1) +
      (if ((s.si.enc.set k { s.si.enc.get k with fresh := false, elapsed := 0 }).get k).fresh then 0 else 2) = 2
    rw [hu, Five.get_set_same]
    rfl
  refine ⟨{ before := ?_, now := ?_, others := fun j hj => ?_ }, hnow⟩
  · change ((isActive (s.axis k).mode || decide ((s.axis k).mode = .safe)) && decide (feedbackStaleness s k ≠ 0)) = false
    rw [(feedbackStaleness_eq_zero_iff s k).2 ⟨hu, he⟩]
    exact Bool.and_false _
  · change ((isActive (s.axis k).mode || decide ((s.axis k).mode = .safe)) &&
      decide (feedbackStaleness (s.makeStale (.enc k)) k ≠ 0)) = true
    rw [hnow, ha]
    rfl
  · cases j with
    | feedbackStale q =>
      have hne : q ≠ k := fun e => hj (e ▸ rfl)
      have henc : (s.makeStale (.enc k)).si.enc.get q = s.si.enc.get q := by
        change (s.si.enc.set k _).get q = _
        rw [Five.get_set, if_neg hne]
      have hstale : feedbackStaleness (s.makeStale (.enc k)) q = feedbackStaleness s q := by
        unfold feedbackStaleness
        rw [henc]
        rfl
      simp only [conditionTruth, hstale]
      rfl
    | _ => rfl

/-! ### The parameters (R139) -/

theorem causeParam_horizonCoast (s : State) :
    s.causeParam .horizonCoast = if allAxes.any (coasts s) then (greatestCoast s, s) else s.freeHalf := rfl

theorem causeParam_feedbackStale (s : State) (k : Axis) :
    s.causeParam (.feedbackStale k) =
      if feedbackStaleness s k ≠ 0 then (halfOfNat (feedbackStaleness s k), s) else s.freeHalf := rfl

/-- The Alert Controller's records after a taking. -/
theorem take_one_served (s : State) (src : Source) :
    (s.take .one src).alc.inService1 = true ∧ (s.take .one src).alc.cause1 = some (takenCause s .one src) := by
  rw [take_alc]
  exact ⟨rfl, rfl⟩

theorem take_two_served (s : State) (src : Source) :
    (s.take .two src).alc.inService2 = true ∧ (s.take .two src).alc.cause2 = some (takenCause s .two src) := by
  rw [take_alc]
  exact ⟨rfl, rfl⟩

/-- BASE's expiry at rest takes BASE_STALE at level 1. -/
theorem base_taken {s : State} (hr : AtRest s) (hb : s.si.sen.base.fresh = true) {q : Axis} (hq : usesBase s q = true)
    (he : (s.source .baseStale).enable = true) (hl : (s.source .baseStale).level = .one) (h2 : s.alc.inService2 = false)
    (h1 : s.alc.inService1 = false) (hp : progress s = false) :
    let t := (s.makeStale (.sen .base)).settle []
    t.alc.inService1 = true ∧ t.alc.cause1 = some ⟨.baseStale, .one, axisSetOf (usesBase s), 0, s.le.frameNo⟩ ∧
      (t.source .baseStale).truth = true ∧
      ∀ x, t.axis x = { s.axis x with damp := (s.axis x).damp || hasAxis (axisSetOf (usesBase s)) x } := by
  intro t
  let m := ((s.makeStale (.sen .base)).recordRise .baseStale).markDue (.condition .baseStale)
  have ht : t = m.take .one .baseStale := (risesAlone_base hb hq).settle_one hr he hl h2 h1 hp
  have hmask : affectedAxes m .baseStale = axisSetOf (usesBase s) := rfl
  have hcause : takenCause m .one .baseStale = ⟨.baseStale, .one, axisSetOf (usesBase s), 0, s.le.frameNo⟩ := rfl
  obtain ⟨hserved, hcause1⟩ := take_one_served m .baseStale
  rw [ht]
  refine ⟨hserved, hcause1.trans (congrArg some hcause), (truth_take m .one .baseStale .baseStale).trans (truth_due _ _), fun x => ?_⟩
  have haxis := take_one_axis m .baseStale x
  rw [hmask] at haxis
  exact haxis

/-- An encoder's expiry at rest takes FEEDBACK_STALE at level 2. -/
theorem encoder_taken {s : State} (hr : AtRest s) {k : Axis} (hfresh : (s.si.enc.get k).fresh = true)
    (hu : (s.si.sen.get (feedbackUnit k)).fresh = true) (ha : isActive (s.axis k).mode = true)
    (he : (s.source (.feedbackStale k)).enable = true) (hl : (s.source (.feedbackStale k)).level = .two)
    (h2 : s.alc.inService2 = false) (hsweep : sweeping s k = false) :
    let t := (s.makeStale (.enc k)).settle []
    t.alc.inService2 = true ∧ t.ms.holdAlert = true ∧
      t.alc.cause2 = some ⟨.feedbackStale k, .two, axisSetOf (fun q => q = k), 2, s.le.frameNo⟩ ∧
      (t.source (.feedbackStale k)).truth = true ∧
      t.axis k = { s.axis k with mode := .safe, jlock := (s.axis k).j, segment := none, launch := none } ∧
      ∀ q, q ≠ k → t.axis q = s.axis q := by
  intro t
  obtain ⟨halone, hcount⟩ := risesAlone_encoder hfresh hu ha
  let m := ((s.makeStale (.enc k)).recordRise (.feedbackStale k)).markDue (.condition (.feedbackStale k))
  have ht : t = (m.take .two (.feedbackStale k)).dropFallen := halone.settle_two hr he hl h2
  have hmask (q : Axis) : hasAxis (affectedAxes m (.feedbackStale k)) q = decide (q = k) := hasAxis_axisSetOf (fun x => x = k) q
  have hparam : (m.causeParam (.feedbackStale k)).1 = 2 := by
    have hm : feedbackStaleness m k = 2 := hcount
    rw [causeParam_feedbackStale, hm]
    rfl
  have hcause : takenCause m .two (.feedbackStale k) = ⟨.feedbackStale k, .two, axisSetOf (fun q => q = k), 2, s.le.frameNo⟩ := by
    unfold takenCause
    rw [hparam]
    rfl
  obtain ⟨hserved, hcause2⟩ := take_two_served m (.feedbackStale k)
  have haxis (q : Axis) := take_two_axis m (.feedbackStale k) q
  simp only [hmask] at haxis
  have hk : (m.take .two (.feedbackStale k)).axis k =
      { s.axis k with mode := .safe, jlock := (s.axis k).j, segment := none, launch := none } := by
    have hsaved : savedFor m k = none := by
      unfold savedFor
      rw [show sweeping m k = false from hsweep]
      rfl
    have hrec := haxis k
    rw [hsaved, decide_eq_true rfl, Bool.true_and] at hrec
    exact hrec.trans (if_pos ha)
  rw [ht]
  refine ⟨hserved, ?_, hcause2.trans (congrArg some hcause), ?_, hk, fun q hq => ?_⟩
  · change (m.take .two (.feedbackStale k)).ms.holdAlert = true
    rw [take_two_ms]
  · have hports : (m.take .two (.feedbackStale k)).si = m.si := by rw [take_outside]
    have hstale : feedbackStaleness (m.take .two (.feedbackStale k)) k = 2 := by
      unfold feedbackStaleness
      rw [hports]
      exact hcount
    have htruth : conditionTruth (m.take .two (.feedbackStale k)) (.feedbackStale k) = true := by
      simp only [conditionTruth, hk, hstale]
      rfl
    rw [source_dropFallen, fallenSource_truth, truth_take, htruth, Bool.and_true]
    exact truth_due _ _
  · have hrec := haxis q
    rw [decide_eq_false hq, Bool.false_and] at hrec
    exact hrec

/-- Settles O10: the conditions by their definitions; an expiry by the one condition that rises with it. -/
theorem stalenessExpiryMakesStale : Obligations.StalenessExpiryMakesStale := by
  refine ⟨fun u k s => ?_, fun s src => ?_, fun s k hr h2 => ?_⟩
  · intro limit p e
    constructor
    · change Host.Outcome.next (s.expireStale (.sen u)) = _
      unfold State.expireStale
      simp only [staleDue_sen]
      rfl
    · change Host.Outcome.next (s.expireStale (.enc k)) = _
      unfold State.expireStale
      simp only [staleDue_enc]
      rfl
  · intro active coast forward unitStale encStale held
    have hcoast (k : Axis) : coasts s k = true ↔ coast k := coasts_iff s k
    have hforward (k : Axis) : usesBase s k = true ↔ forward k := usesBase_iff s k
    have hactive (k : Axis) : isActive (s.axis k).mode = true ↔ active k := isActive_iff _
    have hstale (k : Axis) : feedbackStaleness s k ≠ 0 ↔ unitStale k ∨ encStale k := by
      rw [Ne, feedbackStaleness_eq_zero_iff, feedbackUnit_eq, not_and_or, Bool.not_eq_true, Bool.not_eq_true]
    refine ⟨?_, fun q => ?_, ?_, ?_, ?_⟩
    · cases src with
      | horizonCoast => exact (any_allAxes _).trans (exists_congr hcoast)
      | baseStale =>
        simp only [conditionTruth, Bool.and_eq_true, any_allAxes, hforward, Bool.not_eq_true']
        rfl
      | feedbackStale k =>
        simp only [conditionTruth, Bool.and_eq_true, Bool.or_eq_true, decide_eq_true_eq, hactive, hstale]
      | pinned k => simp only [conditionTruth, Bool.and_eq_true, Bool.or_eq_true, decide_eq_true_eq, hactive]
      | saturated k => simp only [conditionTruth, Bool.and_eq_true, decide_eq_true_eq, hactive]
      | linkSilent => exact decide_eq_true_iff
      | kill => exact Iff.rfl
      | test => exact ⟨nofun, nofun⟩
      | storeParity => exact ⟨nofun, nofun⟩
      | driveFault k => exact ⟨nofun, nofun⟩
    · cases src with
      | test => exact Iff.rfl
      | kill => exact iff_of_true (hasAxis_all q) trivial
      | storeParity => exact iff_of_false (by rw [show affectedAxes s .storeParity = 0 from rfl, hasAxis_empty]; nofun) id
      | horizonCoast => exact (hasAxis_set_iff (coasts s) q).trans (hcoast q)
      | baseStale => exact (hasAxis_set_iff (usesBase s) q).trans (hforward q)
      | linkSilent => exact (hasAxis_set_iff (fun x => (s.axis x).mode = .rate) q).trans decide_eq_true_iff
      | feedbackStale k => exact (hasAxis_set_iff (fun x => x = k) q).trans decide_eq_true_iff
      | pinned k => exact (hasAxis_set_iff (fun x => x = k) q).trans decide_eq_true_iff
      | saturated k => exact (hasAxis_set_iff (fun x => x = k) q).trans decide_eq_true_iff
      | driveFault k => exact (hasAxis_set_iff (fun x => x = k) q).trans decide_eq_true_iff
    · cases src with
      | horizonCoast =>
        refine ⟨fun k hk hmost => ?_, fun hnone => ?_⟩
        · rw [causeParam_horizonCoast, if_pos ((any_allAxes _).2 ⟨k, (hcoast k).2 hk⟩),
            greatestCoast_eq ((hcoast k).2 hk) fun q hq => hmost q ((hcoast q).1 hq)]
        · rw [causeParam_horizonCoast, if_neg fun e => ?_]
          · rfl
          · obtain ⟨k, hk⟩ := (any_allAxes _).1 e
            exact hnone k ((hcoast k).1 hk)
      | feedbackStale k =>
        have hunit (b : Bool) (h : (s.si.sen.get (if k = .swing ∨ k = .lift then .tip else .head)).fresh = b) :
            (s.si.sen.get (feedbackUnit k)).fresh = b := by rw [feedbackUnit_eq]; exact h
        have hvalue {n : Nat} (h : feedbackStaleness s k = n + 1) : s.causeParam (.feedbackStale k) = (halfOfNat (n + 1), s) := by
          rw [causeParam_feedbackStale, h, if_pos (Nat.succ_ne_zero n)]
        have hcount (b c : Bool) (hb : (s.si.sen.get (feedbackUnit k)).fresh = b) (hc : (s.si.enc.get k).fresh = c) :
            feedbackStaleness s k = (if b then 0 else 1) + (if c then 0 else 2) := by
          unfold feedbackStaleness
          rw [hb, hc]
        refine ⟨fun hu he => ?_, fun hu he => ?_, fun hu he => ?_, fun hu he => ?_⟩
        · exact hvalue (hcount false true (hunit _ hu) (Bool.eq_true_of_not_eq_false he))
        · exact hvalue (hcount true false (hunit _ (Bool.eq_true_of_not_eq_false hu)) he)
        · exact hvalue (hcount false false (hunit _ hu) he)
        · have hzero : feedbackStaleness s k = 0 :=
            hcount true true (hunit _ (Bool.eq_true_of_not_eq_false hu)) (Bool.eq_true_of_not_eq_false he)
          rw [causeParam_feedbackStale, if_neg (not_not_intro hzero)]
          rfl
      | _ => rfl
    · rw [take_alc]
      rfl
    · rw [take_alc]
      rfl
  · intro active unit
    have hactive (q : Axis) : isActive (s.axis q).mode = true ↔ active q := isActive_iff _
    refine ⟨fun q hb hlimit ha hkf he hl h1 hp => ?_, fun ha hfresh hlimit hu he hl hsweep => ?_⟩
    · have hexec : exec (.stalenessExpiry (.sen .base)) s = .next ((s.makeStale (.sen .base)).settle []) :=
        congrArg Host.Outcome.next (if_pos ((staleDue_sen s .base).2 ⟨hb, hlimit⟩))
      obtain ⟨hserved, hcause, htruth, haxis⟩ := base_taken hr hb ((usesBase_iff s q).2 ⟨ha, hkf⟩) he hl h2 h1 hp
      exact ⟨_, axisSetOf (usesBase s), hexec, fun x => (hasAxis_set_iff (usesBase s) x).trans (usesBase_iff s x), hserved, hcause,
        htruth, haxis⟩
    · have hexec : exec (.stalenessExpiry (.enc k)) s = .next ((s.makeStale (.enc k)).settle []) :=
        congrArg Host.Outcome.next (if_pos ((staleDue_enc s k).2 ⟨hfresh, hlimit⟩))
      have hunit : (s.si.sen.get (feedbackUnit k)).fresh = true := by rw [feedbackUnit_eq]; exact hu
      exact ⟨_, hexec, encoder_taken hr hfresh hunit ((hactive k).2 ha) he hl h2 hsweep⟩

end Sys2Proof.Machine
end

section
/-! PROOFS. A reset that ends with KILL_N low. -/

namespace Sys2Proof.Machine

/-- What a reset has left when the kill line is taken as low, before the condition and the axes act. -/
def lowLine (s : State) (cause : ResetCause) (pins : Pins) (schedule : List Nat) (freeCount : Nat) : State :=
  { s.blocksReset cause pins with
    killAsserted := true, ms := { Sequencer.reset pins.trig0 pins.trig1 with holdKill := true }
    schedule := schedule, freeCount := freeCount }

theorem assertKill_reset (s : State) (cause : ResetCause) (pins : Pins) :
    ∃ schedule freeCount, let u := lowLine s cause pins schedule freeCount
      (s.blocksReset cause pins).assertKill = (u.settle []).killAxes.settle [] ∨
        (s.blocksReset cause pins).assertKill = u.killAxes.settle [] := by
  let b := s.blocksReset cause pins
  have hcues : (0 : Byte) ||| cuesOf (List.replicate 8 .none) .kill = 0 := by decide
  have hheld : b.killHold = { b with ms := { Sequencer.reset pins.trig0 pins.trig1 with holdKill := true } } :=
    (feedCue_of_no_progress (s := b.setHoldKill true) rfl .kill).trans (congrArg (b.setHoldKill true).writeCues hcues)
  refine ⟨(b.killHold.choose 2).2.schedule, (b.killHold.choose 2).2.freeCount, ?_⟩
  intro u
  have hu : ({ (b.killHold.choose 2).2 with killAsserted := true } : State) = u :=
    (congrArg (fun z : State => { z with killAsserted := true }) (choose_eq b.killHold 2)).trans
      (congrArg (fun z : State => { z with
        killAsserted := true, schedule := (b.killHold.choose 2).2.schedule, freeCount := (b.killHold.choose 2).2.freeCount }) hheld)
  have hassert : b.assertKill = if (b.killHold.choose 2).1 = 0 then (u.settle []).killAxes.settle [] else u.killAxes.settle [] := by
    rw [← hu]
    exact if_neg nofun
  rw [hassert]
  split
  · exact .inl rfl
  · exact .inr rfl

/-- The record of an axis that HALT has stopped, with nothing under way on it. -/
def haltedRecord (x : AxisRec) : AxisRec := { x with mode := .stopped, killPhase := .halted }

theorem haltedRecord_eq {x : AxisRec} (hseg : x.segment = none) (hlaunch : x.launch = none) :
    { x with mode := .stopped, segment := none, launch := none, killPhase := .halted } = haltedRecord x := by
  cases x
  dsimp only at hseg hlaunch
  subst hseg hlaunch
  rfl

/-- The axis has nothing under way, and stops at once when the kill line goes low. -/
structure StopsAtOnce (x : AxisRec) : Prop where
  segment : x.segment = none := by rfl
  launch : x.launch = none := by rfl
  timing : x.active.killTiming = .immediate := by rfl
  effect : x.active.killEffect = .halt := by rfl

theorem killAxis_atOnce {s : State} {k : Axis} (h : StopsAtOnce (s.axis k)) (hs : sweeping s k = false) :
    s.killAxis k =
      { s with
        axes := s.axes.set k (haltedRecord (s.axis k))
        dl := s.dl.set k ((s.dl.get k).hand (brakeWord false)) } := by
  obtain ⟨hseg, hlaunch, ht, he⟩ := h
  have hserials : heldSerials (s.axis k) = [] := by
    unfold heldSerials
    rw [hseg, hlaunch]
    rfl
  have hsaved : withSavedD s k (s.axis k) = s.axis k := if_neg (by rw [hs]; nofun)
  have hhalt : s.killHalt k = s.setAxis k (haltedRecord (s.axis k)) := by
    rw [killHalt_eq, hserials, hsaved, haltedRecord_eq hseg hlaunch]
    exact if_neg (by rw [sweeping_leaveMotion, hs]; nofun)
  have hact : s.killAct k = s.setAxis k (haltedRecord (s.axis k)) := by
    unfold State.killAct
    rw [he]
    exact hhalt
  unfold State.killAxis
  dsimp only
  rw [ht]
  dsimp only
  rw [hact]
  rfl

/-- An assertion that stops every axis at once. -/
theorem killAxes_atOnce {s : State} (h : ∀ k, StopsAtOnce (s.axis k)) (hs : s.sw.running = false) :
    s.killAxes =
      { s with
        axes := s.axes.mapAxis (fun _ x => haltedRecord x), dl := s.dl.mapAxis (fun _ l => l.hand (brakeWord false)) } := by
  have hsweep {t : State} (ht : t.sw = s.sw) (k : Axis) : sweeping t k = false := by
    unfold sweeping
    rw [ht, hs]
    rfl
  have hstops {x : AxisRec} (hx : StopsAtOnce x) : StopsAtOnce (haltedRecord x) := ⟨hx.segment, hx.launch, hx.timing, hx.effect⟩
  have hpass (l : List Axis) (hl : l.Nodup) (t : State) (ht : ∀ k, StopsAtOnce (t.axis k)) (hsw : t.sw = s.sw) :
      let u := l.foldl State.killAxis t
      u = { t with axes := u.axes, dl := u.dl } ∧
        ∀ k, u.axis k = (if k ∈ l then haltedRecord (t.axis k) else t.axis k) ∧
          u.dl.get k = if k ∈ l then (t.dl.get k).hand (brakeWord false) else t.dl.get k := by
    induction l generalizing t with
    | nil => exact ⟨rfl, fun _ => ⟨rfl, rfl⟩⟩
    | cons k l ih =>
      obtain ⟨hk, hl⟩ := List.nodup_cons.1 hl
      have hstep := killAxis_atOnce (ht k) (hsweep hsw k)
      have haxis (j : Axis) : (t.killAxis k).axis j = if j = k then haltedRecord (t.axis k) else t.axis j := by
        rw [hstep]
        exact Five.get_set _ _ _ _
      have hdl (j : Axis) : (t.killAxis k).dl.get j = if j = k then (t.dl.get k).hand (brakeWord false) else t.dl.get j := by
        rw [hstep]
        exact Five.get_set _ _ _ _
      obtain ⟨heq, hall⟩ := ih hl (t.killAxis k)
        (fun j => by rw [haxis]; split <;> [exact hstops (ht k); exact ht j]) (by rw [hstep]; exact hsw)
      refine ⟨heq.trans ?_, fun j => ?_⟩
      · exact congrArg (fun z : State => { z with
          axes := (l.foldl State.killAxis (t.killAxis k)).axes, dl := (l.foldl State.killAxis (t.killAxis k)).dl }) hstep
      · obtain ⟨hx, hd⟩ := hall j
        rw [haxis, hdl] at *
        by_cases hj : j = k
        · subst hj
          rw [if_neg hk, if_pos rfl] at hx hd
          rw [if_pos (List.mem_cons_self ..), if_pos (List.mem_cons_self ..)]
          exact ⟨hx, hd⟩
        · rw [if_neg hj] at hx hd
          simp only [List.mem_cons, hj, false_or]
          exact ⟨hx, hd⟩
  obtain ⟨heq, hall⟩ := hpass allAxes nodup_allAxes s h rfl
  have haxes : s.killAxes.axes = s.axes.mapAxis (fun _ x => haltedRecord x) := Five.ext_get fun k => by
    rw [Five.get_mapAxis]
    exact (hall k).1.trans (if_pos (mem_allAxes k))
  have hdl : s.killAxes.dl = s.dl.mapAxis (fun _ l => l.hand (brakeWord false)) := Five.ext_get fun k => by
    rw [Five.get_mapAxis]
    exact (hall k).2.trans (if_pos (mem_allAxes k))
  change s.killAxes = { s with axes := s.killAxes.axes, dl := s.killAxes.dl } at heq
  rw [haxes, hdl] at heq
  exact heq

/-! ### The condition and the axes (R129), after a reset -/

/-- No axis is served, and the silence timer has not expired: KILL alone can be true. -/
theorem conditionTruth_idle {s : State} (h : ∀ k, isActive (s.axis k).mode = false ∧ (s.axis k).mode ≠ .safe)
    (hs : s.cl.silence ≠ .expired) (src : Source) : conditionTruth s src = (decide (src = .kill) && s.killAsserted) := by
  have hcoasts : coasts s = fun _ => false := funext fun k => by
    unfold coasts
    dsimp only
    rw [(h k).1, Bool.and_false, Bool.false_and]
  have huses : usesBase s = fun _ => false := funext fun k => by
    unfold usesBase
    dsimp only
    rw [(h k).1, Bool.false_and]
  have hserved (k : Axis) : (isActive (s.axis k).mode || decide ((s.axis k).mode = .safe)) = false := by
    rw [(h k).1, decide_eq_false (h k).2]
    rfl
  cases src with
  | kill => rfl
  | linkSilent => exact decide_eq_false hs
  | horizonCoast => simp only [conditionTruth, hcoasts]; rfl
  | baseStale =>
    simp only [conditionTruth, huses]
    exact Bool.and_false _
  | feedbackStale k => simp only [conditionTruth, hserved]; rfl
  | pinned k => simp only [conditionTruth, hserved]; rfl
  | saturated k => simp only [conditionTruth, (h k).1]; rfl
  | _ => rfl

/-- A state that differs from a reset's in its kill line, its hold and what the axes' parts of an assertion write. -/
structure KillLow (cause : ResetCause) (pins : Pins) (z : State) : Prop where
  alc : z.alc = Alerts.reset
  ms : z.ms = { Sequencer.reset pins.trig0 pins.trig1 with holdKill := true }
  cl : z.cl = Console.reset cause
  le : z.le = LoopEngine.reset
  sw : z.sw = Sweep.reset
  kill : z.killAsserted = true
  prot : z.protHigh = pins.protN
  idle : ∀ k, (isActive (z.axis k).mode = false ∧ (z.axis k).mode ≠ .safe) ∧ (z.axis k).damp = false ∧ StopsAtOnce (z.axis k)

/-- The KILL condition taken from there. -/
def State.killTaken (z : State) : State := ((z.recordRise .kill).markDue (.condition .kill)).take .one .kill

section
variable {cause : ResetCause} {pins : Pins} {z : State} (h : KillLow cause pins z)
include h

theorem KillLow.progress : progress z = false := by
  unfold Machine.progress
  rw [h.ms]
  rfl

theorem KillLow.truth (src : Source) : conditionTruth z src = decide (src = .kill) := by
  rw [conditionTruth_idle (fun k => (h.idle k).1) (by rw [h.cl]; nofun), h.kill, Bool.and_true]

theorem KillLow.risesAlone (s : State) : RisesAlone (s.blocksReset cause pins) z .kill where
  alc := h.alc
  head := ⟨by rw [h.ms]; rfl, by rw [h.ms]; rfl, by rw [h.ms]; rfl, h.progress⟩
  before := rfl
  now := h.kill
  others j hj := by
    have hidle (k : Axis) : isActive ((s.blocksReset cause pins).axis k).mode = false ∧
        ((s.blocksReset cause pins).axis k).mode ≠ .safe := by
      rw [show (s.blocksReset cause pins).axis k = _ from axesReset_get k]
      exact ⟨rfl, nofun⟩
    rw [h.truth, decide_eq_false hj, conditionTruth_idle hidle nofun, decide_eq_false hj]
    rfl

theorem KillLow.settle (s : State) : z.settle [] = z.killTaken :=
  (h.risesAlone s).settle_one (atRest_blocksReset s cause pins) rfl rfl rfl rfl h.progress

omit h in
theorem killTaken_axis (k : Axis) : z.killTaken.axis k = { z.axis k with damp := true } := by
  have haxis : z.killTaken.axis k = _ := take_one_axis ((z.recordRise .kill).markDue (.condition .kill)) .kill k
  rw [show affectedAxes ((z.recordRise .kill).markDue (.condition .kill)) .kill = 31 from rfl, hasAxis_all, Bool.or_true] at haxis
  exact haxis

theorem KillLow.taken_ms : z.killTaken.ms = z.ms := by
  have hcues : z.ms.cues ||| cuesOf z.ms.cueSources (.alert .one) = z.ms.cues := by
    rw [h.ms]
    change (0 : Byte) ||| cuesOf (List.replicate 8 .none) (.alert .one) = 0
    decide
  have hms : z.killTaken.ms = { z.ms with cues := z.ms.cues ||| cuesOf z.ms.cueSources (.alert .one) } :=
    take_one_quiet (s := (z.recordRise .kill).markDue (.condition .kill)) (headStep_none_of_no_progress h.progress)
  rw [hms, hcues]

theorem KillLow.taken_cl :
    z.killTaken.cl = { Console.reset cause with txQueue := [⟨0x48, 0, [0, 0, 0, 0, 1, 1, 31, 0, 0]⟩] } := by
  have hcl : z.killTaken.cl = z.cl.offer ⟨0x48, 0, wordBytes z.le.frameNo ++ [1, 1, 31] ++ halfBytes 0⟩ :=
    take_one_cl ((z.recordRise .kill).markDue (.condition .kill)) .kill
  rw [hcl, h.cl, h.le]
  rfl

theorem KillLow.taken_alc :
    z.killTaken.alc.inService1 = true ∧ z.killTaken.alc.inService2 = false ∧ z.killTaken.alc.seen1 = true ∧
      z.killTaken.alc.cause1 = some ⟨.kill, .one, 31, 0, 0⟩ ∧
      z.killTaken.alc.link1 = some ⟨false, false, false, false, false⟩ := by
  have hframe : z.le.frameNo = 0 := by rw [h.le]; rfl
  have hserved : z.alc.inService2 = false := by rw [h.alc]; rfl
  have hlink : z.axes.mapAxis (fun _ x => x.damp) = ⟨false, false, false, false, false⟩ := Five.ext_get fun k => by
    rw [Five.get_mapAxis]
    exact (h.idle k).2.1.trans (by cases k <;> rfl)
  have halc := take_alc ((z.recordRise .kill).markDue (.condition .kill)) .one .kill
  have hcause : takenCause ((z.recordRise .kill).markDue (.condition .kill)) .one .kill = ⟨.kill, .one, 31, 0, z.le.frameNo⟩ := rfl
  rw [hcause, hframe] at halc
  unfold State.killTaken
  rw [halc]
  exact ⟨rfl, hserved, rfl, rfl, congrArg some hlink⟩

/-- What the obligation asks of the state that the reset leaves. -/
structure KilledReset (cause : ResetCause) (pins : Pins) (t : State) : Prop where
  kill : t.killAsserted = true
  ms : t.ms = { Sequencer.reset pins.trig0 pins.trig1 with holdKill := true }
  prot : t.protHigh = pins.protN
  cl : t.cl = { Console.reset cause with txQueue := [⟨0x48, 0, [0, 0, 0, 0, 1, 1, 31, 0, 0]⟩] }
  axis : ∀ k, (t.axis k).mode = .stopped ∧ (t.axis k).killPhase = .halted ∧ (t.axis k).damp = true ∧
    t.dl.get k = ⟨some ⟨.brake, false, 2048⟩, none, some ⟨.brake, false, 2048⟩, 0, false, 0, none, []⟩
  alc : t.alc.inService1 = true ∧ t.alc.inService2 = false ∧ t.alc.seen1 = true ∧ t.alc.cause1 = some ⟨.kill, .one, 31, 0, 0⟩ ∧
    t.alc.link1 = some ⟨false, false, false, false, false⟩

theorem KillLow.taken_kept : z.killTaken.killAsserted = true ∧ z.killTaken.protHigh = pins.protN ∧ z.killTaken.dl = z.dl ∧
    z.killTaken.sw = z.sw := by
  have hout : z.killTaken = _ := take_outside ((z.recordRise .kill).markDue (.condition .kill)) .one .kill
  have hsw : z.killTaken.sw = z.sw := take_one_sw ((z.recordRise .kill).markDue (.condition .kill)) .kill
  refine ⟨?_, ?_, ?_, hsw⟩
  · rw [hout]; exact h.kill
  · rw [hout]; exact h.prot
  · rw [hout]; rfl

/-- The axes after an assertion, from there. -/
theorem KillLow.killAxes : z.killAxes =
    { z with
      axes := z.axes.mapAxis (fun _ x => haltedRecord x), dl := z.dl.mapAxis (fun _ l => l.hand (brakeWord false)) } :=
  killAxes_atOnce (fun k => (h.idle k).2.2) (by rw [h.sw]; rfl)

theorem KillLow.ofKillAxes : KillLow cause pins z.killAxes := by
  have hax := h.killAxes
  refine ⟨by rw [hax]; exact h.alc, by rw [hax]; exact h.ms, by rw [hax]; exact h.cl, by rw [hax]; exact h.le,
    by rw [hax]; exact h.sw, by rw [hax]; exact h.kill, by rw [hax]; exact h.prot, fun k => ?_⟩
  have haxis : z.killAxes.axis k = haltedRecord (z.axis k) := by
    rw [hax]
    exact Five.get_mapAxis _ _ _
  obtain ⟨-, hdamp, hstops⟩ := h.idle k
  rw [haxis]
  exact ⟨⟨rfl, nofun⟩, hdamp, hstops.segment, hstops.launch, hstops.timing, hstops.effect⟩

/-- The axes act first. -/
theorem KillLow.axesFirst (s : State) (hdl : z.dl = Five.all DriveLink.reset) : KilledReset cause pins (z.killAxes.settle []) := by
  have hlow := h.ofKillAxes
  obtain ⟨hkill, hprot, hdl', -⟩ := hlow.taken_kept
  rw [hlow.settle s]
  refine ⟨hkill, hlow.taken_ms.trans hlow.ms, hprot, hlow.taken_cl, fun k => ?_, hlow.taken_alc⟩
  have haxis : z.killAxes.axis k = haltedRecord (z.axis k) := by
    rw [h.killAxes]
    exact Five.get_mapAxis _ _ _
  have hlink : z.killTaken.dl = z.dl := h.taken_kept.2.2.1
  rw [killTaken_axis, haxis, hdl', h.killAxes]
  dsimp only
  rw [Five.get_mapAxis, hdl]
  cases k <;> exact ⟨rfl, rfl, rfl, rfl⟩

/-- The condition is taken first. -/
theorem KillLow.conditionFirst (s : State) (hdl : z.dl = Five.all DriveLink.reset) :
    KilledReset cause pins ((z.settle []).killAxes.settle []) := by
  have hrest : AtRest z.killTaken := h.settle s ▸ atRest_settle z (by simp)
  obtain ⟨hkill, hprot, hdl', hsw⟩ := h.taken_kept
  have hax : z.killTaken.killAxes = _ := killAxes_atOnce (fun k => by
    rw [killTaken_axis]
    obtain ⟨-, -, hstops⟩ := h.idle k
    exact ⟨hstops.segment, hstops.launch, hstops.timing, hstops.effect⟩) (by rw [hsw, h.sw]; rfl)
  have haxis (k : Axis) : z.killTaken.killAxes.axis k = haltedRecord (z.killTaken.axis k) := by
    rw [hax]
    exact Five.get_mapAxis _ _ _
  have halc : z.killTaken.killAxes.alc = z.killTaken.alc := by rw [hax]
  have hcl : z.killTaken.killAxes.cl = z.killTaken.cl := by rw [hax]
  have hms : z.killTaken.killAxes.ms = z.killTaken.ms := by rw [hax]
  have hkilled : z.killTaken.killAxes.killAsserted = z.killTaken.killAsserted := by rw [hax]
  have hsilence : z.killTaken.cl.silence ≠ .expired := by rw [h.taken_cl]; nofun
  have htruth (src : Source) : conditionTruth z.killTaken.killAxes src = conditionTruth z.killTaken src := by
    rw [conditionTruth_idle (fun k => by rw [haxis]; exact ⟨rfl, nofun⟩) (by rw [hcl]; exact hsilence),
      conditionTruth_idle (fun k => by rw [killTaken_axis]; exact (h.idle k).1) hsilence, hkilled]
  have hjudged : Judged z.killTaken.killAxes := by
    rw [judged_iff]
    intro src
    unfold State.source
    rw [htruth, halc]
    exact (judged_iff _).1 ⟨hrest.1, hrest.2.1⟩ src
  have harb : z.killTaken.killAxes.arbitrate = none := by
    rw [arbitrate_none_iff, firstWaiting_of_sources (congrArg Alerts.sources halc), firstWaiting_of_sources (congrArg Alerts.sources halc),
      halc, ← arbitrate_none_iff]
    exact hrest.2.2.1
  have hstill : Machine.progress z.killTaken.killAxes = false := by
    unfold Machine.progress
    rw [hms, h.taken_ms, h.ms]
    rfl
  rw [h.settle s, settle_atRest ⟨hjudged.1, hjudged.2, harb, headStep_none_of_no_progress hstill⟩]
  refine ⟨hkilled.trans hkill, hms.trans (h.taken_ms.trans h.ms), by rw [hax]; exact hprot, hcl.trans h.taken_cl, fun k => ?_,
    by rw [halc]; exact h.taken_alc⟩
  rw [haxis, killTaken_axis, hax]
  dsimp only
  rw [Five.get_mapAxis, hdl', hdl]
  cases k <;> exact ⟨rfl, rfl, rfl, rfl⟩

end

theorem killLow_reset (s : State) (cause : ResetCause) (pins : Pins) (schedule : List Nat) (freeCount : Nat) :
    KillLow cause pins (lowLine s cause pins schedule freeCount) := by
  refine ⟨rfl, rfl, rfl, rfl, rfl, rfl, rfl, fun k => ?_⟩
  have haxis : (lowLine s cause pins schedule freeCount).axis k = _ := axesReset_get k
  rw [haxis]
  exact ⟨⟨rfl, nofun⟩, rfl, {}⟩

theorem killedReset_resetWith {pins : Pins} (h : pins.killN = false) (s : State) (cause : ResetCause) :
    KilledReset cause pins (s.resetWith cause pins) := by
  have hreset : s.resetWith cause pins = (s.blocksReset cause pins).assertKill := if_neg (by rw [h]; nofun)
  obtain ⟨schedule, freeCount, hassert⟩ := assertKill_reset s cause pins
  have hlow := killLow_reset s cause pins schedule freeCount
  rw [hreset]
  rcases hassert with he | he
  · rw [he]; exact hlow.conditionFirst s rfl
  · rw [he]; exact hlow.axesFirst s rfl

/-- Settles O6: the hold, then the condition and the axes in either order. -/
theorem resetTakesLowKillLine : Obligations.ResetTakesLowKillLine := by
  intro pins s hpin restart i cause hcases
  have hexec : exec i s = .next (s.resetWith cause pins) := by
    rcases hcases with ⟨rfl, rfl⟩ | ⟨rfl, rfl⟩ | ⟨⟨hkill, h0, h1, hprot, hd, tag, rest, hq⟩, rfl, rfl⟩
    · rfl
    · rfl
    · have hpins : (⟨!s.killAsserted, s.ms.trig0.line, s.ms.trig1.line, s.protHigh⟩ : Pins) = pins := by
        rw [hkill, ← h0, ← h1, ← hprot, Bool.not_true, ← hpin]
      refine congrArg Host.Outcome.next ((frameSent_restart hd hq).trans ?_)
      rw [hpins]
  obtain ⟨hkill, hms, hprot, hcl, haxis, h1, h2, hseen, hcause, hlink⟩ := killedReset_resetWith hpin s cause
  exact ⟨_, hexec, hkill, by rw [hms], by rw [hcl]; rfl, by rw [hcl]; rfl, by rw [hms]; rfl, by rw [hms]; rfl, hprot, haxis, h1, h2,
    hseen, hcause, hlink, by rw [hcl]⟩

end Sys2Proof.Machine
end

section
/-! PROOFS. What a computation with the kill settled, no launch pending and no swap leaves of its state: the axis record by the
estimation and the mode's work (R43), the word it hands (R122), the mark test (R102) and what is handed over (R98). -/

namespace Sys2Proof.Machine

/-! ### The estimation depends on the ports, the joint angles and the axis's own record -/

/-- The two states agree on everything that the estimation of axis `k` reads; the axis's launches may differ. -/
structure SameEstimation (k : Axis) (s t : State) : Prop where
  si : t.si = s.si
  le : t.le = s.le
  setup : t.cl.setup = s.cl.setup
  joints : ∀ j, (t.axis j).j = (s.axis j).j
  axis : t.axis k = { s.axis k with launch := (t.axis k).launch }

theorem SameEstimation.ofAlerts (k : Axis) (s : State) (a : Alerts) : SameEstimation k s { s with alc := a } :=
  ⟨rfl, rfl, rfl, fun _ => rfl, rfl⟩

section
variable {k : Axis} {s t : State}

theorem SameEstimation.jointAngle (h : SameEstimation k s t) : jointAngle t k = jointAngle s k := by
  unfold Sys2Proof.Machine.jointAngle
  rw [h.si, h.axis]

theorem SameEstimation.jointStep (h : SameEstimation k s t) : SameEstimation k (s.jointStep k) (t.jointStep k) := by
  have hport : t.si.enc.get k = s.si.enc.get k := by rw [h.si]
  cases hnew : (s.si.enc.get k).newPos with
  | false => rwa [jointStep_old hnew, jointStep_old (hport ▸ hnew)]
  | true =>
    rw [jointStep_new hnew, jointStep_new (s := t) (hport ▸ hnew), h.jointAngle, hport]
    refine ⟨?_, h.le, h.setup, fun j => ?_, ?_⟩
    · exact congrArg (fun x : SensorIntake => { x with enc := x.enc.set k { s.si.enc.get k with newPos := false } }) h.si
    · rw [State.axis_setAxis, State.axis_setAxis]
      split
      · rfl
      · exact h.joints j
    · rw [State.axis_setAxis_same, State.axis_setAxis_same, h.axis]

theorem SameEstimation.gyroTerm (h : SameEstimation k s t) : gyroTerm t k = gyroTerm s k :=
  gyroTerm_of (by rw [h.si]) (by rw [h.axis])

theorem SameEstimation.integrated (h : SameEstimation k s t) (n : Nat) : integrated t k n = integrated s k n := by
  unfold Sys2Proof.Machine.integrated
  rw [h.gyroTerm, h.si, h.axis]

theorem SameEstimation.headed (h : SameEstimation k s t) (w : Word) :
    headed t k w = { headed s k w with launch := (t.axis k).launch } := by
  have hsum : jointSum t k = jointSum s k := by
    unfold jointSum
    split
    · rw [h.joints .swing, h.joints .pan]
    · rw [h.joints .swing]
  unfold Sys2Proof.Machine.headed
  rw [hsum, h.le, h.axis]

theorem SameEstimation.leveled (h : SameEstimation k s t) (w : Word) :
    leveled t k w = { leveled s k w with launch := (t.axis k).launch } := by
  have hvalid : gravityValid t (feedbackUnit k) = gravityValid s (feedbackUnit k) := by
    unfold gravityValid
    rw [h.si, h.setup]
  unfold Sys2Proof.Machine.leveled
  rw [hvalid, h.si, h.axis]
  dsimp only
  split <;> [split; split] <;> rfl

/-- The estimated records differ in the launch alone. -/
theorem SameEstimation.estimate (h : SameEstimation k s t) (n : Nat) :
    (t.estimate k n).axis k = { (s.estimate k n).axis k with launch := (t.axis k).launch } := by
  have hj := h.jointStep
  have hlaunch : ((t.jointStep k).axis k).launch = (t.axis k).launch := by rw [jointStep_axis]
  rw [estimate_axis_same, estimate_axis_same, hj.integrated n]
  split
  · rw [hj.headed, hlaunch]
  · rw [hj.leveled, hlaunch]

theorem SameEstimation.estimate_same (h : SameEstimation k s t) (hlaunch : (t.axis k).launch = (s.axis k).launch) (n : Nat) :
    (t.estimate k n).axis k = (s.estimate k n).axis k := by
  have hkept : ((s.estimate k n).axis k).launch = (s.axis k).launch := by rw [estimate_axis]
  rw [h.estimate n, hlaunch, ← hkept]

theorem SameEstimation.ports (h : SameEstimation k s t) : (t.jointStep k).si = (s.jointStep k).si := h.jointStep.si

end

/-! ### The joint step of an estimation -/

theorem estimate_j (s : State) (k : Axis) (n : Nat) : ((s.estimate k n).axis k).j = ((s.jointStep k).axis k).j := by
  rw [estimate_axis_same]
  split
  · rfl
  · unfold leveled
    dsimp only
    split <;> [split; split] <;> rfl

theorem jointStep_newPos (s : State) (k : Axis) : ((s.jointStep k).si.enc.get k).newPos = false := by
  rw [jointStep_enc, Five.get_set_same]

/-- The estimation of a state whose joint step is made. -/
theorem estimate_jointStep (s : State) (k : Axis) (n : Nat) : (s.jointStep k).estimate k n = s.estimate k n := by
  unfold State.estimate
  rw [jointStep_old (jointStep_newPos s k)]

/-! ### The mark test (R102, R103) -/

/-- J crosses markAngle in an enabled direction, from a position read before. -/
def Crossed (s : State) (k : Axis) : Prop :=
  let r := (s.axis k).active
  let before := (s.axis k).j.toInt
  let after := ((s.jointStep k).axis k).j.toInt
  (s.axis k).lastEncoder ≠ none ∧
    (r.markUp = true ∧ before < r.markAngle ∧ r.markAngle ≤ after ∨ r.markDown = true ∧ r.markAngle ≤ before ∧ after < r.markAngle)

theorem marks_iff (s : State) (k : Axis) (n : Nat) : marks s k n = true ↔ Crossed s k := by
  unfold marks markCrossed Crossed
  rw [estimate_j]
  simp only [Bool.and_eq_true, Bool.or_eq_true, decide_eq_true_eq, Option.isSome_iff_ne_none, and_assoc]

/-! ### The mode's work -/

theorem targetRule_active (k : Axis) (a : AxisRec) (n : Nat) :
    (targetRule k a n).1.active = a.active ∧ (targetRule k a n).1.staged = a.staged ∧ (targetRule k a n).1.lastMark = a.lastMark := by
  have hmove : (moveStep k a n).1.active = a.active ∧ (moveStep k a n).1.staged = a.staged ∧ (moveStep k a n).1.lastMark = a.lastMark := by
    unfold moveStep segmentEnded
    split
    · exact ⟨rfl, rfl, rfl⟩
    · dsimp only
      split <;> [split; skip] <;> exact ⟨rfl, rfl, rfl⟩
  unfold targetRule
  split
  · exact ⟨rfl, rfl, rfl⟩
  · exact ⟨rfl, rfl, rfl⟩
  · exact hmove
  · exact ⟨rfl, rfl, rfl⟩

theorem modeWork_active {s : State} {k : Axis} (h : isActive (s.axis k).mode = true) (g : Int) (n : Nat) :
    modeWork s k g n false = activeWork s.le.ring k (s.axis k) g n := by
  unfold modeWork
  cases hm : (s.axis k).mode with
  | hold | rate | follow | move =>
    dsimp only
    rw [hm]
    rfl
  | off | stopped | safe =>
    rw [hm] at h
    cases h

theorem modeWork_off {s : State} {k : Axis} (h : (s.axis k).mode = .off) (g : Int) (n : Nat) :
    modeWork s k g n false = ⟨s.axis k, .freewheel, none⟩ := by
  unfold modeWork
  dsimp only
  rw [h]
  rfl

theorem modeWork_stopped {s : State} {k : Axis} (h : (s.axis k).mode = .stopped) (g : Int) (n : Nat) :
    modeWork s k g n false = ⟨s.axis k, .brake, none⟩ := by
  unfold modeWork
  dsimp only
  rw [h]
  rfl

theorem modeWork_held (s : State) (k : Axis) (g : Int) (n : Nat) :
    modeWork s k g n true = ⟨{ s.axis k with t := (s.axis k).w }, .brake, none⟩ := rfl

/-- The mode's work writes neither tuning copy, nor the last mark. -/
theorem modeWork_keeps (s : State) (k : Axis) (g : Int) (n : Nat) (held : Bool) :
    (modeWork s k g n held).axis.active = (s.axis k).active ∧ (modeWork s k g n held).axis.staged = (s.axis k).staged ∧
      (modeWork s k g n held).axis.lastMark = (s.axis k).lastMark := by
  cases held with
  | true => exact ⟨rfl, rfl, rfl⟩
  | false =>
    cases hm : (s.axis k).mode with
    | off => rw [modeWork_off hm]; exact ⟨rfl, rfl, rfl⟩
    | stopped => rw [modeWork_stopped hm]; exact ⟨rfl, rfl, rfl⟩
    | safe =>
      rw [modeWork_safe hm]
      split <;> exact ⟨rfl, rfl, rfl⟩
    | hold | rate | follow | move =>
      rw [modeWork_active (by rw [hm]; rfl)]
      exact targetRule_active k _ n

/-! ### The sweep's count writes the D of its axis (R111, R112) -/

theorem axis_setActiveD (s : State) (k j : Axis) (d : Nat) :
    (s.setActiveD k d).axis j = if j = k then { s.axis k with active := { (s.axis k).active with d := d } } else s.axis j :=
  State.axis_setAxis _ _ _ _

theorem axis_endSweep (s : State) (o : SweepOutcome) (d : Nat) (a b : Option Nat) (j : Axis) :
    (s.endSweep o d a b).axis j = s.axis j := by
  rw [endSweep_eq]
  rfl

/-- On the sweep's axis a count writes the tuning copies alone; the other axes stay. -/
structure SweepAxes (s t : State) : Prop where
  same : t.axis s.sw.axis = { s.axis s.sw.axis with active := (t.axis s.sw.axis).active, staged := (t.axis s.sw.axis).staged }
  other : ∀ j, j ≠ s.sw.axis → t.axis j = s.axis j

theorem SweepAxes.of_axes {s t u : State} (h : SweepAxes s t) (hu : u.axes = t.axes) : SweepAxes s u := by
  have haxis (j : Axis) : u.axis j = t.axis j := congrArg (Five.get · j) hu
  exact ⟨by rw [haxis]; exact h.same, fun j hj => (haxis j).trans (h.other j hj)⟩

theorem sweepAxes_setActiveD (s : State) (d : Nat) : SweepAxes s (s.setActiveD s.sw.axis d) where
  same := by rw [axis_setActiveD, if_pos rfl]
  other j hj := by rw [axis_setActiveD, if_neg hj]

theorem sweepAxes_evaluateSweep (s : State) : SweepAxes s s.evaluateSweep := by
  unfold State.evaluateSweep
  split
  · exact (sweepAxes_setActiveD s _).of_axes (by rw [endSweep_eq])
  · dsimp only
    refine ⟨?_, fun j hj => ?_⟩
    · rw [axis_endSweep, setStagedD_setActiveD, State.axis_setAxis_same]
    · rw [axis_endSweep, setStagedD_setActiveD, State.axis_setAxis, if_neg hj]

theorem sweepAxes_countSweep (s : State) (g : Int) : SweepAxes s (s.countSweep g) := by
  rcases Nat.lt_or_ge (s.sw.count + 1) s.sw.wn with h | h
  · rw [countSweep_below h]
    exact ⟨rfl, fun _ _ => rfl⟩
  · rcases Nat.lt_or_ge s.sw.currentD s.sw.dhi with hd | hd
    · rw [countSweep_stepped h hd]
      exact (sweepAxes_setActiveD s _).of_axes rfl
    · rw [countSweep_evaluated h hd]
      have hevaluated := sweepAxes_evaluateSweep { s with sw := (s.sw.counted g).recorded }
      exact ⟨hevaluated.same, hevaluated.other⟩

/-! ### The state that the work leaves -/

theorem worked_axis (s : State) (k : Axis) (n : Nat) (held : Bool) :
    (s.worked k n held).axis k =
      { (estimatedWork s k n held).axis with
        lastMark := if marks s k n then some s.le.frameNo else (s.axis k).lastMark } := by
  have hmark : (estimatedWork s k n held).axis.lastMark = (s.axis k).lastMark :=
    (modeWork_keeps (s.estimate k n) k _ n held).2.2.trans (by rw [estimate_axis])
  unfold State.worked
  dsimp only
  rw [State.axis_setAxis_same, hmark, estimate_le]

/-- What the work from the estimation on leaves: `w` is the axis record it writes, the tuning copies being the sweep's to change. -/
structure Finished (s : State) (k : Axis) (n : Nat) (held : Bool) (t : State) : Prop where
  axis :
    t.axis k =
      { (estimatedWork s k n held).axis with
        lastMark := (if marks s k n then some s.le.frameNo else (s.axis k).lastMark)
        active := (t.axis k).active
        staged := (t.axis k).staged }
  other : ∀ j, j ≠ k → t.axis j = s.axis j
  si : t.si = (s.jointStep k).si
  le : t.le = s.le
  ms : t.ms = s.ms

theorem finished_uncounted {s : State} {k : Axis} {n : Nat} {held : Bool} (h : counts s k n held = false) :
    s.finished k n held = ((s.worked k n held).handCommand k (estimatedWork s k n held).command).1 := by
  unfold State.finished
  rw [h]
  rfl

theorem finished_finished (s : State) (k : Axis) (n : Nat) (held : Bool) : Finished s k n held (s.finished k n held) := by
  have hhanded : Finished s k n held ((s.worked k n held).handCommand k (estimatedWork s k n held).command).1 := by
    have haxis (j : Axis) :
        (((s.worked k n held).handCommand k (estimatedWork s k n held).command).1).axis j = (s.worked k n held).axis j := rfl
    refine ⟨?_, fun j hj => (haxis j).trans (worked_axis_other s n held hj), worked_si s k n held, worked_le s k n held,
      worked_ms s k n held⟩
    rw [haxis, worked_axis]
  cases hc : counts s k n held with
  | false =>
    rw [finished_uncounted hc]
    exact hhanded
  | true =>
    have hsweeping : sweeping (s.estimate k n) k = true := by
      unfold counts at hc
      simp only [Bool.and_eq_true] at hc
      exact hc.1.1.1
    have hrun := running_of_sweeping hsweeping
    rw [estimate_sw] at hrun
    unfold State.finished
    rw [hc]
    dsimp only
    rw [if_pos rfl]
    generalize hu : ((s.worked k n held).handCommand k (estimatedWork s k n held).command).1 = u at hhanded ⊢
    have husw : u.sw = s.sw := by
      rw [← hu]
      exact worked_sw s k n held
    have haxis : u.sw.axis = k := by rw [husw]; exact hrun.2
    generalize gyroTerm (s.estimate k n) k = g
    have hcount := sweepCount_countSweep (s := u) (by rw [husw]; exact hrun.1) g
    have haxes := sweepAxes_countSweep u g
    have hsame := haxes.same
    rw [haxis] at hsame
    obtain ⟨hsi, hle, -⟩ := hcount.outside
    refine ⟨?_, fun j hj => (haxes.other j (by rwa [haxis])).trans (hhanded.other j hj), hsi.trans hhanded.si, hle.trans hhanded.le,
      hcount.ms.trans hhanded.ms⟩
    rw [hsame, hhanded.axis]

/-- With no sweep on the axis, or held, the tuning copies stay. -/
theorem finished_tuning {s : State} {k : Axis} {n : Nat} {held : Bool} (h : counts s k n held = false) :
    ((s.finished k n held).axis k).active = (s.axis k).active ∧ ((s.finished k n held).axis k).staged = (s.axis k).staged := by
  have haxis : (s.finished k n held).axis k = (s.worked k n held).axis k := by
    rw [finished_uncounted h]
    rfl
  obtain ⟨hactive, hstaged, -⟩ := modeWork_keeps (s.estimate k n) k (gyroTerm (s.estimate k n) k) n held
  rw [estimate_axis] at hactive hstaged
  rw [haxis, worked_axis]
  exact ⟨hactive, hstaged⟩

/-! ### The computation with the kill settled, no launch and no swap -/

theorem swapCheck_none {s : State} {k : Axis} (h : ¬((s.axis k).swapPending = true ∧ (s.axis k).mode ≠ .move ∧ sweeping s k = false)) :
    s.swapCheck k = s := by
  refine if_neg fun e => h ?_
  simp only [Bool.and_eq_true, decide_eq_true_eq, Bool.not_eq_true'] at e
  exact ⟨e.1.1, e.1.2, e.2⟩

section
variable (k : Axis) (s : State) (a : Alerts) (n : Nat)

theorem estimatedWork_ofAlerts (held : Bool) : estimatedWork { s with alc := a } k n held = estimatedWork s k n held := by
  have h := SameEstimation.ofAlerts k s a
  have haxis : (({ s with alc := a } : State).estimate k n).axis k = (s.estimate k n).axis k := h.estimate_same rfl n
  have hsi : (({ s with alc := a } : State).estimate k n).si = (s.estimate k n).si := h.ports
  have hg : gyroTerm (({ s with alc := a } : State).estimate k n) k = gyroTerm (s.estimate k n) k := gyroTerm_of (by rw [hsi]) (by rw [haxis])
  unfold estimatedWork modeWork
  rw [haxis, hsi, hg, estimate_le, estimate_le]

theorem marks_ofAlerts : marks { s with alc := a } k n = marks s k n := by
  have haxis : (({ s with alc := a } : State).estimate k n).axis k = (s.estimate k n).axis k :=
    (SameEstimation.ofAlerts k s a).estimate_same rfl n
  unfold marks
  rw [haxis]
  rfl

theorem counts_ofAlerts (held : Bool) : counts { s with alc := a } k n held = counts s k n held := by
  rw [counts_eq, counts_eq]
  rfl

end

/-- What a computation with the kill settled, no launch and no swap leaves and passes on. -/
structure Computed (s : State) (k : Axis) (n : Nat) (held : Bool) (c : State) (p : Passed) : Prop where
  finished : Finished s k n held c
  link :
    c.dl =
      s.dl.set k
        (handedLink s.le.park s.cl.setup.driverMissLimit (s.axis k).active.reportEvery (s.dl.get k) (estimatedWork s k n held).command
          (estimatedWork s k n held).axis.uPrev.toInt)
  tuning : counts s k n held = false → (c.axis k).active = (s.axis k).active ∧ (c.axis k).staged = (s.axis k).staged
  uncounted : counts s k n held = false → c.sw = s.sw ∧ c.cl = s.cl
  marked : p.marked = marks s k n
  missed : p.missed = ((s.dl.get k).checkMiss s.cl.setup.driverMissLimit).2
  ended : p.ended = (estimatedWork s k n held).ended

theorem computed_settled {s : State} {k : Axis} (hk : killSettled s k) (hl : (s.axis k).launch = none)
    (hs : ¬((s.axis k).swapPending = true ∧ (s.axis k).mode ≠ .move ∧ sweeping s k = false)) (n : Nat) :
    Computed s k n (heldByPause s k) (s.computeAxis k n).1 (s.computeAxis k n).2 := by
  rw [computeAxis_settled hk hl, State.swapAndWork, swapCheck_none hs]
  generalize heldByPause s k = held
  have hjudge := judge_eq s
  generalize s.judge.2 = rose
  generalize s.judge.1 = t at hjudge ⊢
  generalize ({ s.alc with sources := t.alc.sources } : Alerts) = a at hjudge
  subst hjudge
  have hfin := finished_finished { s with alc := a } k n held
  have hactive : (({ s with alc := a } : State).worked k n held).axis k =
      { (estimatedWork s k n held).axis with lastMark := if marks s k n then some s.le.frameNo else (s.axis k).lastMark } := by
    rw [worked_axis, estimatedWork_ofAlerts, marks_ofAlerts]
    rfl
  have hreport : (estimatedWork s k n held).axis.active = (s.axis k).active :=
    (modeWork_keeps (s.estimate k n) k _ n held).1.trans (by rw [estimate_axis])
  refine ⟨⟨?_, hfin.other, ?_, hfin.le, hfin.ms⟩, ?_, fun hc => ?_, fun hc => ?_, marks_ofAlerts k s a n, ?_, ?_⟩
  · rw [hfin.axis, estimatedWork_ofAlerts, marks_ofAlerts]
    rfl
  · exact hfin.si.trans (SameEstimation.ofAlerts k s a).ports
  · rw [finished_dl, hactive, estimatedWork_ofAlerts k s a]
    dsimp only
    rw [hreport]
  · exact finished_tuning ((counts_ofAlerts k s a n held).trans hc)
  · rw [finished_uncounted ((counts_ofAlerts k s a n held).trans hc)]
    exact ⟨worked_sw _ k n held, worked_cl _ k n held⟩
  · dsimp only
    rw [handCommand_eq, worked_dl, worked_cl]
  · exact congrArg ModeWork.ended (estimatedWork_ofAlerts k s a n held)

end Sys2Proof.Machine
end

section
/-! PROOFS. O13: a computation's word, its mark, the record it leaves and what it hands over (R43, R98, R102, R122). -/

namespace Sys2Proof.Machine

/-- The state hypotheses of a computation that is neither held nor launching nor swapping. -/
theorem killSettled_of_unheld {s : State} {k : Axis}
    (h : (s.axis k).killPhase = .clear ∨
      s.killAsserted = true ∧ ((s.axis k).killPhase = .halted ∨ (s.axis k).killPhase = .paused ∧ isHoldable (s.axis k).mode = false)) :
    killSettled s k ∧ heldByPause s k = false := by
  unfold killSettled heldByPause
  rcases h with h | ⟨ha, h | ⟨h, hm⟩⟩
  · exact ⟨.inl h, by simp [h]⟩
  · exact ⟨.inr ⟨ha, by rw [h]; nofun⟩, by simp [h]⟩
  · exact ⟨.inr ⟨ha, by rw [h]; nofun⟩, by simp [hm]⟩

/-- The word of an axis's link, by its command. -/
theorem Computed.word {s c : State} {k : Axis} {n : Nat} {held : Bool} {p : Passed} (h : Computed s k n held c p) :
    let m := (s.dl.get k).checkMiss s.cl.setup.driverMissLimit
    let q := m.1.countRequest (s.axis k).active.reportEvery
    c.dl.get k = q.1.hand (wordFor s.le.park (estimatedWork s k n held).command (c.axis k).uPrev.toInt q.2) := by
  have hprev : (c.axis k).uPrev = (estimatedWork s k n held).axis.uPrev := by rw [h.finished.axis]
  intro m q
  rw [h.link, Five.get_set_same, hprev]
  rfl

/-- What a mark that was crossed leaves as the axis's last mark. -/
theorem Computed.lastMark {s c : State} {k : Axis} {n : Nat} {held : Bool} {p : Passed} (h : Computed s k n held c p) :
    (Crossed s k → (c.axis k).lastMark = some s.le.frameNo) ∧ (¬Crossed s k → (c.axis k).lastMark = (s.axis k).lastMark) := by
  rw [h.finished.axis]
  refine ⟨fun hx => if_pos ((marks_iff s k n).2 hx), fun hx => if_neg (fun e => hx ((marks_iff s k n).1 e))⟩

/-- The record of a computation whose mode's work is `m`. -/
theorem Computed.record {s c : State} {k : Axis} {n : Nat} {held : Bool} {p : Passed} (h : Computed s k n held c p) {m : ModeWork}
    (hm : estimatedWork s k n held = m) :
    c.axis k =
        { m.axis with lastMark := (c.axis k).lastMark, active := (c.axis k).active, staged := (c.axis k).staged } ∧
      p.ended = m.ended := by
  subst hm
  refine ⟨?_, h.ended⟩
  have haxis := h.finished.axis
  have hmark : (c.axis k).lastMark = if marks s k n then some s.le.frameNo else (s.axis k).lastMark := by rw [haxis]
  rw [hmark]
  exact haxis

theorem estimate_mode (s : State) (k : Axis) (n : Nat) : ((s.estimate k n).axis k).mode = (s.axis k).mode := by
  rw [estimate_axis]

theorem estimate_fresh (s : State) (k : Axis) (n : Nat) : ((s.estimate k n).si.enc.get k).fresh = (s.si.enc.get k).fresh := by
  rw [estimate_si, jointStep_enc, Five.get_set_same]

theorem handOver_marked (t : State) (k : Axis) (v : Passed) :
    t.handOver k { v with marked := true } =
      (t.changeCues (t.ms.cues ||| cuesOf t.ms.cueSources (.mark k))).handOver k { v with marked := false } := rfl

theorem estimatedWork_eq (s : State) (k : Axis) (n : Nat) (held : Bool) :
    estimatedWork s k n held = modeWork (s.estimate k n) k (gyroTerm s k) n held :=
  congrArg (fun g => modeWork (s.estimate k n) k g n held) (gyroTerm_estimate s k n)

theorem estimatedWork_active {s : State} {k : Axis} (h : isActive (s.axis k).mode = true) (n : Nat) :
    estimatedWork s k n false = activeWork s.le.ring k ((s.estimate k n).axis k) (gyroTerm s k) n := by
  rw [estimatedWork_eq, modeWork_active (by rwa [estimate_mode]), estimate_le]

/-- The settling of what a computation's conditions and misses bring about. -/
def State.alerted (t : State) (k : Axis) (v : Passed) : State :=
  t.settle (v.rose.map Due.condition ++ if v.missed then [.raised (.driveFault k) 2] else [])

theorem handOver_plain (t : State) (k : Axis) {v : Passed} (hm : v.marked = false) (he : v.ended = none) :
    t.handOver k v = t.alerted k v := by
  obtain ⟨rose, missed, marked, ended⟩ := v
  obtain rfl : marked = false := hm
  obtain rfl : ended = none := he
  rfl

theorem handOver_ended (t : State) (k : Axis) {v : Passed} (hm : v.marked = false) {serial : Half} (he : v.ended = some serial) :
    t.handOver k v = ((((t.alerted k v).reportSegment k serial false).settle []).feedCue (.segmentDone k)).settle [] := by
  obtain ⟨rose, missed, marked, ended⟩ := v
  obtain rfl : marked = false := hm
  obtain rfl : ended = some serial := he
  rfl

/-- Settles O13: the settled computation's record, link and mark, read by mode. -/
theorem computationHandsItsModesWord : Obligations.ComputationHandsItsModesWord := by
  intro s k n hk hl hs
  obtain ⟨hsettled, hheld⟩ := killSettled_of_unheld hk
  have hc := computed_settled hsettled hl hs n
  rw [hheld] at hc
  intro c passed p q brake drive r before after crossed
  change Computed s k n false c passed at hc
  have hword := hc.word
  have hcrossed : marks s k n = true ↔ crossed := marks_iff s k n
  have hoff (hm : (s.axis k).mode = .off) : estimatedWork s k n false = ⟨(s.estimate k n).axis k, .freewheel, none⟩ :=
    modeWork_off (by rwa [estimate_mode]) _ n
  have hstopped (hm : (s.axis k).mode = .stopped) : estimatedWork s k n false = ⟨(s.estimate k n).axis k, .brake, none⟩ :=
    modeWork_stopped (by rwa [estimate_mode]) _ n
  have hsafe (hm : (s.axis k).mode = .safe) : estimatedWork s k n false =
      if (s.si.enc.get k).fresh then ⟨safeDriven ((s.estimate k n).axis k), .drive, none⟩
      else ⟨safeBraked ((s.estimate k n).axis k), .brake, none⟩ := by
    rw [← estimate_fresh s k n]
    exact modeWork_safe (by rwa [estimate_mode]) _ n
  refine ⟨fun hm => ?_, fun hm => ?_, fun hm hf => ⟨?_, ?_⟩, fun hd => ?_, fun j hj => ⟨?_, hc.finished.other j hj⟩, ?_, ?_,
    hc.lastMark.1, hc.lastMark.2, ?_, ?_, rfl⟩
  · rw [hword, hoff hm]
    rfl
  · rw [hword, hstopped hm]
    rfl
  · rw [hword, hsafe hm, if_neg (by rw [hf]; nofun)]
    rfl
  · have hrecord := (hc.record (hsafe hm)).1
    rw [if_neg (by rw [hf]; nofun)] at hrecord
    rw [hrecord]
    rfl
  · have hdrive : (estimatedWork s k n false).command = .drive := by
      rcases hd with ha | ⟨hm, hf⟩
      · rw [estimatedWork_active ha]
        rfl
      · rw [hsafe hm, if_pos hf]
    rw [hword, hdrive]
    rfl
  · rw [hc.link, Five.get_set_other _ _ hj]
  · rw [hc.marked]
    exact hcrossed
  · rw [hc.missed]
  · intro e x b g kept w
    refine ⟨(estimate_jointStep s k n).symm, jointStep_newPos s k, hc.finished.si, hc.finished.le, hc.finished.ms, fun hno => ?_,
      fun hm => ?_, fun hm => ⟨?_, ?_, estimate_mode s k n ▸ hm⟩, fun ha => ?_⟩
    · refine hc.tuning ?_
      rw [counts_eq, hno]
      rfl
    · rcases hm with hm | hm
      · exact hc.record (hoff hm)
      · exact hc.record (hstopped hm)
    · exact (hc.record (estimatedWork_eq s k n false)).1
    · rw [hc.ended, hsafe hm]
      split <;> rfl
    · exact hc.record (estimatedWork_active ha n)
  · intro t v alerts
    exact ⟨handOver_marked t k v, fun hm he => handOver_plain t k hm he, fun serial hm he => handOver_ended t k hm he⟩

end Sys2Proof.Machine
end

section
/-! PROOFS. O16: the swap (R36), and the conditions judged at it (R66, R144). -/

namespace Sys2Proof.Machine

theorem swapCheck_swapped {s : State} {k : Axis} (hp : (s.axis k).swapPending = true) (hm : (s.axis k).mode ≠ .move)
    (hs : sweeping s k = false) : s.swapCheck k = s.setAxis k (swapped (s.axis k)) := by
  refine if_pos ?_
  rw [hp, decide_eq_true hm, hs]
  rfl

/-- The swap check brings the runtime into the new record's bounds (R36). -/
theorem swapped_bounds {a : AxisRec} (h : a.staged.ok = true) :
    (swapped a).i.toInt = max (-(a.staged.imax : Int)) (min a.staged.imax a.i.toInt) ∧
    (swapped a).uPrev.toInt = max (-(a.staged.umax : Int)) (min a.staged.umax a.uPrev.toInt) ∧
    (swapped a).rdEff.toInt = max (-(a.staged.rmax : Int)) (min a.staged.rmax a.rdEff.toInt) ∧
    (swapped a).rdTarget.toInt = max (-(a.staged.rmax : Int)) (min a.staged.rmax a.rdTarget.toInt) := by
  have hb := Tuning.bounds_of_ok h
  have himax := hb.imax
  have humax := hb.umax
  refine ⟨?_, ?_, toInt_half16_clampSym h _, toInt_half16_clampSym h _⟩
  · change (BitVec.ofInt 32 (clampSym a.i.toInt a.staged.imax)).toInt = _
    rw [clampSym_eq _ (by omega), toInt_ofInt32 (by omega)]
  · change (half16 (clampSym a.uPrev.toInt a.staged.umax)).toInt = _
    rw [clampSym_eq _ (by omega), toInt_half16 (by omega)]

/-- After its swap check an axis has no swap to make; what the settling of the kill and the launch read is as before. -/
theorem swapCheck_idem (s : State) (k : Axis) :
    (s.swapCheck k).swapCheck k = s.swapCheck k ∧ ((s.swapCheck k).axis k).killPhase = (s.axis k).killPhase ∧
      ((s.swapCheck k).axis k).launch = (s.axis k).launch ∧ ((s.swapCheck k).axis k).mode = (s.axis k).mode := by
  by_cases h : (s.axis k).swapPending = true ∧ (s.axis k).mode ≠ .move ∧ sweeping s k = false
  · obtain ⟨hp, hm, hs⟩ := h
    rw [swapCheck_swapped hp hm hs, State.axis_setAxis_same]
    refine ⟨swapCheck_none ?_, rfl, rfl, rfl⟩
    rw [State.axis_setAxis_same]
    exact fun h => by cases h.1
  · rw [swapCheck_none h]
    exact ⟨swapCheck_none h, rfl, rfl, rfl⟩

theorem computeAxis_swapCheck {s : State} {k : Axis} (hk : killSettled s k) (hl : (s.axis k).launch = none) (n : Nat) :
    s.computeAxis k n = (s.swapCheck k).computeAxis k n := by
  obtain ⟨hidem, hphase, hlaunch, hmode⟩ := swapCheck_idem s k
  have hkill : (s.swapCheck k).killAsserted = s.killAsserted := (swapCheck_same s k).2.2.2.1
  have hk' : killSettled (s.swapCheck k) k := by
    unfold killSettled
    rwa [hphase, hkill]
  have hheld : heldByPause (s.swapCheck k) k = heldByPause s k := by
    unfold heldByPause
    rw [hkill, hphase, hmode]
  rw [computeAxis_settled hk hl, computeAxis_settled hk' (hlaunch.trans hl), hheld]
  unfold State.swapAndWork
  rw [hidem]

/-- The conditions that rise at a computation are those that the state presents after its swap. -/
theorem mem_rose {s : State} {k : Axis} (hk : killSettled s k) (hl : (s.axis k).launch = none) (n : Nat) (src : Source) :
    src ∈ (s.computeAxis k n).2.rose ↔ conditionTruth (s.swapCheck k) src = true ∧ (s.source src).truth = false := by
  have hrose : (s.computeAxis k n).2.rose = risings (s.swapCheck k) := by
    rw [computeAxis_settled hk hl]
    exact risings_dropFallen _
  have halc : (s.swapCheck k).source src = s.source src := by
    unfold State.swapCheck
    dsimp only
    split <;> rfl
  rw [hrose, mem_risings, halc]

/-- At rest a LATCHED source whose condition rose becomes pending, and being disabled waits (R144, R146). -/
theorem settle_latched {s : State} (h : AtRest s) {src : Source} (hl : (s.source src).latched = true)
    (he : (s.source src).enable = false) : s.settle [.condition src] = s.markDue (.condition src) := by
  have hmarked := atRest_markDue h (arbitrate_markDue_waits h.2.2.1 (d := .condition src) (.inl he))
  have hdue : stillDues s [.condition src] = [.condition src] := by
    unfold stillDues
    rw [List.filter_cons_of_pos (by rw [stillDue, hl]; rfl), List.filter_nil]
  calc s.settle [.condition src] = s.toRest ⟨[], stillDues s [.condition src]⟩ := by
        rw [settle_eq s (by simp), judge_atRest h.1 h.2.1]
        rfl
    _ = (s.markDue (.condition src)).toRest ⟨[], []⟩ := by rw [hdue, toRest_due h]
    _ = s.markDue (.condition src) := toRest_atRest hmarked

/-- Settles O16: the two branches of the swap check, the computation from the state it leaves, and a LATCHED rise at rest. -/
theorem swapTakesStagedRecord : Obligations.SwapTakesStagedRecord := by
  intro s k hok a b
  refine ⟨fun hp hm hs => ?_, swapCheck_none, fun hk hl n => ?_, fun src h hl he => settle_latched h hl he⟩
  · have hb : b = swapped a := by rw [show b = _ from congrArg (·.axis k) (swapCheck_swapped hp hm hs), State.axis_setAxis_same]
    obtain ⟨hi, hu, hrd, hrt⟩ := swapped_bounds hok
    rw [hb]
    exact ⟨rfl, hi, hu, hrd, hrt, swapCheck_swapped hp hm hs⟩
  · exact ⟨computeAxis_swapCheck hk hl n, mem_rose hk hl n⟩

end Sys2Proof.Machine
end

section
/-! PROOFS. O15: the settling of the kill (R132, R135), the launch installed or dropped (R31, R133), and the computation that the PAUSE
effect holds. -/

namespace Sys2Proof.Machine

/-! ### The settling of the kill -/

/-- The record of an axis whose kill phase becomes CLEAR, resuming from PAUSE (R132 step 2, R135). -/
theorem clearKill_eq (a : AxisRec) :
    clearKill a =
      if a.killPhase = .paused ∧ (a.mode = .hold ∨ a.mode = .rate ∨ a.mode = .follow) then
        { a with
          killPhase := .clear, t := a.w, i := 0, uPrev := 0, rdEff := 0, rdTarget := 0, satFlag := .none, pinState := .none
          satCount := 0, pinCount := 0, coastCount := 0, o := if a.mode = .follow then a.w - a.f else a.o }
      else { a with killPhase := .clear } := by
  have hholdable : isHoldable a.mode = true ↔ a.mode = .hold ∨ a.mode = .rate ∨ a.mode = .follow := by
    cases a.mode <;> simp [isHoldable]
  unfold clearKill
  simp only [hholdable]
  split
  · unfold resumeCapture
    dsimp only [entryCapture]
    split
    · unfold followCapture
      rw [ofInt_wrapDiff]
    · rfl
  · rfl

theorem settleKill_released {s : State} {k : Axis} (hr : s.killAsserted = false) (hc : (s.axis k).killPhase ≠ .clear)
    (ha : (s.axis k).killPhase ≠ .awaiting) : s.settleKill k = s.setAxis k (clearKill (s.axis k)) := by
  unfold State.settleKill State.settleAwaiting
  rw [if_neg ha]
  exact if_neg (by rw [hr, decide_eq_false hc]; nofun)

/-- The settling of an axis in AWAITING, from the state its act leaves. -/
theorem settleKill_awaiting {s : State} {k : Axis} (ha : (s.axis k).killPhase = .awaiting)
    (hc : ((s.killAct k).axis k).killPhase ≠ .clear) :
    s.settleKill k =
      if s.killAsserted then s.killAct k else (s.killAct k).setAxis k (clearKill ((s.killAct k).axis k)) := by
  have hact : (s.killAct k).killAsserted = s.killAsserted := (killAct_same s k).2.2.2.1
  unfold State.settleKill State.settleAwaiting
  rw [if_pos ha]
  dsimp only
  rw [hact, decide_eq_false hc, Bool.or_false]

/-- HALT acts, and the phase becomes CLEAR where the line is released (R131, R132). -/
theorem settleKill_halt {s : State} {k : Axis} (ha : (s.axis k).killPhase = .awaiting) (he : (s.axis k).active.killEffect = .halt) :
    s.settleKill k =
      (s.leaveMotion k
        { withSavedD s k (s.axis k) with
          mode := .stopped, segment := none, launch := none, killPhase := if s.killAsserted then .halted else .clear }
        (heldSerials (s.axis k))).sweepAborted k := by
  have hact : s.killAct k = s.killHalt k := by
    unfold State.killAct
    rw [he]
  have haxis : (s.killAct k).axis k =
      { withSavedD s k (s.axis k) with mode := .stopped, segment := none, launch := none, killPhase := .halted } := by
    rw [hact, killHalt_eq, sweepAborted_axis, leaveMotion_axis_same]
  rw [settleKill_awaiting ha (by rw [haxis]; nofun), haxis, hact, killHalt_eq, clearKill_eq, sweepAborted_setAxis, leaveMotion_setAxis]
  cases s.killAsserted <;> rfl

/-- PAUSE acts, and the axis resumes where the line is released (R131, R132, R135). -/
theorem settleKill_pause {s : State} {k : Axis} (ha : (s.axis k).killPhase = .awaiting) (he : (s.axis k).active.killEffect = .pause) :
    let paused : AxisRec :=
      { s.axis k with
        mode := if (s.axis k).mode = .move then .hold else (s.axis k).mode, segment := none, launch := none, killPhase := .paused }
    s.settleKill k = s.leaveMotion k (if s.killAsserted then paused else clearKill paused) (heldSerials (s.axis k)) := by
  intro paused
  have hact : s.killAct k = s.killPause k := by
    unfold State.killAct
    rw [he]
  have haxis : (s.killAct k).axis k = paused := by rw [hact, killPause_eq, leaveMotion_axis_same]
  rw [settleKill_awaiting ha (by rw [haxis]; nofun), haxis, hact, killPause_eq, leaveMotion_setAxis]
  cases s.killAsserted <;> rfl

theorem clearKill_killPhase (a : AxisRec) : (clearKill a).killPhase = .clear := rfl

/-- The phases that a settling leaves. -/
theorem settleKill_phase (s : State) (k : Axis) :
    ((s.settleKill k).axis k).killPhase = .clear ∨
      s.killAsserted = true ∧
        (((s.settleKill k).axis k).killPhase = .halted ∨ ((s.settleKill k).axis k).killPhase = .paused) := by
  cases hp : (s.axis k).killPhase with
  | clear =>
    rw [settleKill_settled (.inl hp)]
    exact .inl hp
  | halted | paused =>
    cases hr : s.killAsserted with
    | true =>
      rw [settleKill_settled (.inr ⟨hr, by rw [hp]; nofun⟩), hp]
      exact .inr ⟨rfl, by simp⟩
    | false =>
      rw [settleKill_released hr (by rw [hp]; nofun) (by rw [hp]; nofun), State.axis_setAxis_same]
      exact .inl rfl
  | awaiting =>
    cases he : (s.axis k).active.killEffect with
    | halt =>
      rw [settleKill_halt hp he, sweepAborted_axis, leaveMotion_axis_same]
      cases s.killAsserted <;> simp
    | pause =>
      rw [settleKill_pause hp he, leaveMotion_axis_same]
      cases s.killAsserted
      · exact .inl rfl
      · exact .inr ⟨rfl, .inr rfl⟩

/-! ### The pending launch -/

theorem discardLaunch_eq (s : State) (k : Axis) :
    s.discardLaunch k = s.leaveMotion k { s.axis k with launch := none } ((s.axis k).launch.map Segment.serial).toList := by
  unfold State.discardLaunch
  cases hl : (s.axis k).launch with
  | none =>
    have haxis : ({ s.axis k with launch := none } : AxisRec) = s.axis k := by rw [← hl]
    rw [haxis, State.leaveMotion, setAxis_self]
    rfl
  | some g => exact reportAll_eq [g.serial] _ k

theorem installLaunch_hold {s : State} {k : Axis} {g : Segment} (hl : (s.axis k).launch = some g) (hm : (s.axis k).mode = .hold) :
    s.installLaunch k =
      (s.setAxis k { withSavedD s k (s.axis k) with mode := .move, segment := some g, launch := none }).sweepAborted k := by
  have hinstall : s.installLaunch k =
      (s.leaveHold k).setAxis k { passBetweenActive ((s.leaveHold k).axis k) .move with segment := some g, launch := none } := by
    unfold State.installLaunch
    rw [hl, hm]
  rw [hinstall, leaveHold_eq, sweepAborted_setAxis, setAxis_setAxis, sweepAborted_axis, State.axis_setAxis_same]
  rfl

theorem installLaunch_running {s : State} {k : Axis} {g : Segment} (hl : (s.axis k).launch = some g)
    (hm : (s.axis k).mode = .rate ∨ (s.axis k).mode = .follow) :
    s.installLaunch k = s.setAxis k { s.axis k with mode := .move, segment := some g, launch := none } := by
  unfold State.installLaunch
  rw [hl]
  rcases hm with hm | hm <;> rw [hm] <;> rfl

theorem installLaunch_move {s : State} {k : Axis} {g : Segment} (hl : (s.axis k).launch = some g) (hm : (s.axis k).mode = .move) :
    s.installLaunch k =
      s.leaveMotion k { s.axis k with mode := .move, segment := some g, launch := none }
        ((s.axis k).segment.map Segment.serial).toList := by
  have hkept : ({ s.axis k with mode := .move, segment := some g, launch := none } : AxisRec) =
      { s.axis k with segment := some g, launch := none } := by rw [← hm]
  unfold State.installLaunch
  rw [hl, hm, hkept]
  dsimp only
  cases (s.axis k).segment with
  | none => rfl
  | some o => exact reportAll_eq [o.serial] _ k

theorem installLaunch_inactive {s : State} {k : Axis} {g : Segment} (hl : (s.axis k).launch = some g)
    (hm : (s.axis k).mode = .off ∨ (s.axis k).mode = .stopped ∨ (s.axis k).mode = .safe) : s.installLaunch k = s.discardLaunch k := by
  unfold State.installLaunch
  rw [hl]
  rcases hm with hm | hm | hm <;> rw [hm]

/-- What an installation leaves on the axis. -/
theorem installLaunch_axis (s : State) (k : Axis) :
    ((s.installLaunch k).axis k).killPhase = (s.axis k).killPhase ∧ ((s.installLaunch k).axis k).launch = none ∧
      (((s.installLaunch k).axis k).mode = (s.axis k).mode ∨ ((s.installLaunch k).axis k).mode = .move) := by
  cases hl : (s.axis k).launch with
  | none =>
    rw [installLaunch_none hl]
    exact ⟨rfl, hl, .inl rfl⟩
  | some g =>
    cases hm : (s.axis k).mode with
    | hold =>
      rw [installLaunch_hold hl hm, sweepAborted_axis, State.axis_setAxis_same]
      exact ⟨withSavedD_killPhase s k _, rfl, .inr rfl⟩
    | rate =>
      rw [installLaunch_running hl (.inl hm), State.axis_setAxis_same]
      exact ⟨rfl, rfl, .inr rfl⟩
    | follow =>
      rw [installLaunch_running hl (.inr hm), State.axis_setAxis_same]
      exact ⟨rfl, rfl, .inr rfl⟩
    | move =>
      rw [installLaunch_move hl hm, leaveMotion_axis_same]
      exact ⟨rfl, rfl, .inr rfl⟩
    | off | stopped | safe =>
      rw [installLaunch_inactive hl (by simp [hm]), discardLaunch_eq, leaveMotion_axis_same]
      exact ⟨rfl, rfl, .inl hm⟩

/-- The axis after the settling and the launch: the phase that the settling leaves, no launch, held as it was. -/
theorem launched_axis (s : State) (k : Axis) :
    ((s.launched k).axis k).killPhase = ((s.settleKill k).axis k).killPhase ∧ ((s.launched k).axis k).launch = none ∧
      heldByPause (s.launched k) k = heldByPause (s.settleKill k) k := by
  unfold State.launched
  dsimp only
  cases hh : heldByPause (s.settleKill k) k with
  | true =>
    rw [if_pos rfl, discardLaunch_eq, leaveMotion_axis_same]
    refine ⟨rfl, rfl, ?_⟩
    rw [← hh]
    unfold heldByPause
    rw [leaveMotion_axis_same]
    rfl
  | false =>
    obtain ⟨hphase, hlaunch, hmode⟩ := installLaunch_axis (s.settleKill k) k
    have hkill : ((s.settleKill k).installLaunch k).killAsserted = (s.settleKill k).killAsserted := (installLaunch_same _ k).2.2.2.1
    rw [if_neg nofun]
    refine ⟨hphase, hlaunch, ?_⟩
    unfold heldByPause at hh ⊢
    rw [hphase, hkill]
    rcases hmode with hm | hm
    · rwa [hm]
    · rw [hm]
      exact Bool.and_false _

theorem launched_killAsserted (s : State) (k : Axis) : (s.launched k).killAsserted = s.killAsserted := (launched_same s k).2.2.2.1

/-- A computation is that of the state with the kill settled and the launch installed or dropped (R43). -/
theorem computeAxis_launched (s : State) (k : Axis) (n : Nat) : s.computeAxis k n = (s.launched k).computeAxis k n := by
  obtain ⟨hphase, hlaunch, hheld⟩ := launched_axis s k
  have hsettled : killSettled (s.launched k) k := by
    unfold killSettled
    rw [hphase, launched_killAsserted]
    rcases settleKill_phase s k with h | ⟨ha, h | h⟩
    · exact .inl h
    · exact .inr ⟨ha, by rw [h]; nofun⟩
    · exact .inr ⟨ha, by rw [h]; nofun⟩
  rw [computeAxis_settled hsettled hlaunch, computeAxis_eq, hheld]

/-! ### The computation that PAUSE holds (R133) -/

theorem marks_of_same {k : Axis} {s t : State} (h : SameEstimation k s t) (n : Nat) : marks t k n = marks s k n := by
  have hj : ((t.estimate k n).axis k).j = ((s.estimate k n).axis k).j := by rw [h.estimate n]
  have hactive : (t.axis k).active = (s.axis k).active := by rw [h.axis]
  have hj0 : (t.axis k).j = (s.axis k).j := h.joints k
  have hlast : (t.axis k).lastEncoder = (s.axis k).lastEncoder := by rw [h.axis]
  unfold marks
  rw [hj, hactive, hj0, hlast]

theorem sameEstimation_discardLaunch (s : State) (k : Axis) : SameEstimation k s (s.discardLaunch k) := by
  rw [discardLaunch_eq]
  refine ⟨rfl, rfl, rfl, fun j => ?_, ?_⟩
  · by_cases hj : j = k
    · subst hj
      rw [leaveMotion_axis_same]
    · rw [leaveMotion_axis_other _ _ _ _ hj]
  · rw [leaveMotion_axis_same]

/-- The record, the link and the rest after a held computation. -/
structure HeldComputed (s : State) (k : Axis) (n : Nat) (c : State) (p : Passed) : Prop where
  axis :
    c.axis k =
      { (s.estimate k n).axis k with
        t := ((s.estimate k n).axis k).w
        launch := none
        lastMark := (if marks s k n then some s.le.frameNo else (s.axis k).lastMark) }
  other : ∀ j, j ≠ k → c.axis j = s.axis j
  link :
    c.dl =
      s.dl.set k
        (let m := (s.dl.get k).checkMiss s.cl.setup.driverMissLimit
         let q := m.1.countRequest (s.axis k).active.reportEvery
         q.1.hand ⟨.brake, q.2, 2048⟩)
  si : c.si = (s.estimate k n).si
  le : c.le = s.le
  cl : c.cl = s.cl
  sw : c.sw = s.sw
  ms : c.ms = (s.discardLaunch k).ms
  marked : p.marked = marks s k n
  missed : p.missed = ((s.dl.get k).checkMiss s.cl.setup.driverMissLimit).2
  ended : p.ended = none

theorem heldComputed {s : State} {k : Axis} (ha : s.killAsserted = true) (hp : (s.axis k).killPhase = .paused)
    (hm : isHoldable (s.axis k).mode = true) (hs : ¬((s.axis k).swapPending = true ∧ sweeping s k = false)) (n : Nat) :
    HeldComputed s k n (s.computeAxis k n).1 (s.computeAxis k n).2 := by
  have hheld : heldByPause s k = true := by
    unfold heldByPause
    rw [ha, hp, hm]
    rfl
  have hsettle : s.settleKill k = s := settleKill_settled (.inr ⟨ha, by rw [hp]; nofun⟩)
  have hlaunched : s.launched k = s.discardLaunch k := by
    unfold State.launched
    rw [hsettle]
    exact if_pos hheld
  have hv := launched_axis s k
  rw [hlaunched, hsettle, hheld, hp] at hv
  obtain ⟨hphase, hlaunch, hheldv⟩ := hv
  have hsame := sameEstimation_discardLaunch s k
  obtain ⟨hsi, hle, hdl, hkill, -⟩ := discardLaunch_same s k
  have haxis : (s.discardLaunch k).axis k = { s.axis k with launch := none } := by rw [discardLaunch_eq, leaveMotion_axis_same]
  have hother (j : Axis) (hj : j ≠ k) : (s.discardLaunch k).axis j = s.axis j := by
    rw [discardLaunch_eq, leaveMotion_axis_other _ _ _ _ hj]
  have hcl : (s.discardLaunch k).cl = s.cl := by rw [discardLaunch_eq]; rfl
  have hsw : (s.discardLaunch k).sw = s.sw := by rw [discardLaunch_eq]; rfl
  have hswap : ¬(((s.discardLaunch k).axis k).swapPending = true ∧ ((s.discardLaunch k).axis k).mode ≠ .move ∧
      sweeping (s.discardLaunch k) k = false) := by
    unfold sweeping
    rw [haxis, hsw]
    exact fun h => hs ⟨h.1, h.2.2⟩
  have hc := computed_settled (.inr ⟨hkill.trans ha, by rw [hphase]; nofun⟩) hlaunch hswap n
  rw [hheldv, ← hlaunched, ← computeAxis_launched, hlaunched] at hc
  have hwork : estimatedWork (s.discardLaunch k) k n true =
      ⟨{ (s.estimate k n).axis k with t := ((s.estimate k n).axis k).w, launch := none }, .brake, none⟩ := by
    unfold estimatedWork
    rw [modeWork_held, hsame.estimate n, hlaunch]
  have huncounted : counts (s.discardLaunch k) k n true = false := Bool.and_false _
  obtain ⟨hactive, hstaged⟩ := hc.tuning huncounted
  refine ⟨?_, fun j hj => (hc.finished.other j hj).trans (hother j hj), ?_, ?_, hc.finished.le.trans hle,
    (hc.uncounted huncounted).2.trans hcl, (hc.uncounted huncounted).1.trans hsw, hc.finished.ms, ?_, ?_, ?_⟩
  · have hkept : ((s.estimate k n).axis k).active = (s.axis k).active ∧ ((s.estimate k n).axis k).staged = (s.axis k).staged := by
      rw [estimate_axis]
      exact ⟨rfl, rfl⟩
    rw [hc.finished.axis, hactive, hstaged, hwork, marks_of_same hsame, hle, haxis, ← hkept.1, ← hkept.2]
  · rw [hc.link, hwork, hdl, hcl, haxis, hle]
    rfl
  · exact hc.finished.si.trans hsame.ports
  · rw [hc.marked, marks_of_same hsame]
  · rw [hc.missed, hdl, hcl]
  · rw [hc.ended, hwork]

/-- The end of a sweep as the statement writes it: the aborted registers, and the notice. -/
theorem sweepAborted_written (s : State) (k : Axis) {u : State} (hsw : u.sw = s.sw) (hle : u.le = s.le) :
    (if sweeping s k then
        ({ u with sw := { s.sw with running := false, last := ⟨.aborted, k, s.sw.savedD, none, none, s.le.frameNo⟩ } } :
            State).offerUnasked
          ⟨0x49, 0, wordBytes s.le.frameNo ++ [1, byteOf (axisIndex k), 4, byteOf s.sw.savedD]⟩
      else u) = u.sweepAborted k := by
  have hsweeping : sweeping u k = sweeping s k := by
    unfold sweeping
    rw [hsw]
  unfold State.sweepAborted
  rw [hsweeping, hsw, hle]
  split
  · rw [offerUnasked_eq]
  · rfl

theorem heldSerials_eq (a : AxisRec) :
    ([a.segment.map Segment.serial, a.launch.map Segment.serial] : List (Option Half)).filterMap id = heldSerials a := by
  unfold heldSerials
  cases a.segment <;> cases a.launch <;> rfl

/-- Settles O15: the held computation; the settling by phase, line and effect; the launch by mode; and the computation from there. -/
theorem heldComputationBrakes : Obligations.HeldComputationBrakes := by
  refine ⟨fun s k n ha hp hm hs => ?_, fun s k => ?_⟩
  · have hc := heldComputed ha hp hm hs n
    have hx := estimate_axis s k n
    intro c a b p q
    have hb : b = { (s.estimate k n).axis k with
        t := ((s.estimate k n).axis k).w
        launch := none
        lastMark := (if marks s k n then some s.le.frameNo else (s.axis k).lastMark) } := hc.axis
    have hkept : b.mode = a.mode ∧ b.killPhase = .paused ∧ b.launch = none ∧ b.t = b.w ∧ b.i = a.i ∧ b.uPrev = a.uPrev ∧
        b.rdEff = a.rdEff ∧ b.rdTarget = a.rdTarget ∧ b.o = a.o ∧ b.satFlag = a.satFlag ∧ b.pinState = a.pinState ∧
        b.satCount = a.satCount ∧ b.pinCount = a.pinCount := by
      rw [hb, hx]
      exact ⟨rfl, hp, rfl, rfl, rfl, rfl, rfl, rfl, rfl, rfl, rfl, rfl, rfl⟩
    obtain ⟨h1, h2, h3, h4, h5, h6, h7, h8, h9, h10, h11, h12, h13⟩ := hkept
    refine ⟨h1, h2, h3, h4, h5, h6, h7, h8, h9, h10, h11, h12, h13, hc.sw, ?_, ?_⟩
    · exact (congrArg (Five.get · k) hc.link).trans (Five.get_set_same ..)
    · intro e passed before after crossed
      have hcrossed : marks s k n = true ↔ crossed := marks_iff s k n
      refine ⟨(estimate_jointStep s k n).symm, jointStep_newPos s k, ?_, hc.si, hc.le, hc.cl, fun hl => ?_, fun g hl => ?_,
        fun j hj => ⟨?_, hc.other j hj⟩, ?_, fun hx => ?_, fun hx => ?_, ?_, hc.ended, rfl⟩
      · rw [hb]
      · exact hc.ms.trans (by rw [discardLaunch_none hl])
      · refine hc.ms.trans ?_
        rw [discardLaunch_eq, hl, reportSegment_eq]
        rfl
      · exact (congrArg (Five.get · j) hc.link).trans (Five.get_set_other _ _ hj)
      · rw [show passed.marked = _ from hc.marked]
        exact hcrossed
      · rw [hb]
        exact if_pos (hcrossed.2 hx)
      · rw [hb]
        exact if_neg fun e => hx (hcrossed.1 e)
      · rw [show passed.missed = _ from hc.missed]
  · intro a swept restored left sweepEnded held cleared
    have hleft (y : AxisRec) (serials : List (Option Half)) : left y serials = s.leaveMotion k y (serials.filterMap id) :=
      reportAll_eq _ _ _
    have hcleared (x : AxisRec) (hx : x.killPhase = .paused) : cleared x = clearKill x := by
      rw [clearKill_eq, hx]
      simp only [true_and]
      rfl
    have hswept (u : State) (hsw : u.sw = s.sw) (hle : u.le = s.le) : sweepEnded u = u.sweepAborted k := sweepAborted_written s k hsw hle
    have hheld : held.filterMap id = heldSerials a := heldSerials_eq a
    refine ⟨fun h => settleKill_settled (h.imp_right And.symm), fun hr hp => ?_, fun hr hp => ?_, fun hp he => ?_,
      fun hp he => ?_, fun hl => ⟨installLaunch_none hl, discardLaunch_none hl⟩, fun g hl => ?_, fun n => ?_⟩
    · rw [settleKill_released hr (by rw [hp]; nofun) (by rw [hp]; nofun), clearKill_eq, if_neg (by rw [hp]; exact fun h => nomatch h.1)]
    · rw [settleKill_released hr (by rw [hp]; nofun) (by rw [hp]; nofun), hcleared a hp]
    · rw [settleKill_halt hp he, hleft, hheld]
      exact (hswept _ (by rfl) (by rfl)).symm
    · intro paused
      rw [settleKill_pause hp he, hleft, hheld, hcleared paused rfl]
    · intro moved dropped
      have hdropped : s.discardLaunch k = dropped := by
        rw [discardLaunch_eq, hl]
        exact (hleft { a with launch := none } [some g.serial]).symm
      refine ⟨hdropped, fun hm => ?_, fun hm => ?_, fun hm => ?_, fun hm => (installLaunch_inactive hl hm).trans hdropped⟩
      · rw [installLaunch_hold hl hm]
        exact (hswept _ (by rfl) (by rfl)).symm
      · rw [installLaunch_running hl hm]
      · rw [installLaunch_move hl hm, hleft]
        cases a.segment <;> rfl
    · intro u v
      have hlaunched := launched_axis s k
      have hv : v = s.launched k := rfl
      have hcompute : s.computeAxis k n = v.computeAxis k n := computeAxis_launched s k n
      refine ⟨?_, hcompute, hlaunched.2.1, launched_killAsserted s k, ?_⟩
      · unfold State.compute
        rw [hcompute]
      · rw [hv, hlaunched.1]
        exact settleKill_phase s k

end Sys2Proof.Machine
end

section
/-! PROOFS. O11: what the parts of a loop frame (computations, the head's count, report steps) leave alone, in whatever order they
come (R41, R178). -/

namespace Sys2Proof.Machine

/-! ### Frames offered one after another (R168, R179) -/

theorem toNat_satInc (c : Half) : (satInc c).toNat = if c.toNat < 65535 then c.toNat + 1 else c.toNat := by
  unfold satInc satAdd
  rw [BitVec.toNat_ofNat]
  split <;> omega

/-- What a run of offers leaves of the link: some of the frames are queued, in order, and all of them where none was dropped. -/
structure Offered (fs : List Frame) (c d : Console) (added : List Frame) : Prop where
  sublist : added.Sublist fs
  link : d = { c with
    txQueue := c.txQueue ++ added, counters := { c.counters with unaskedDrops := d.counters.unaskedDrops } }
  drops : c.counters.unaskedDrops.toNat ≤ d.counters.unaskedDrops.toNat
  all : c.counters.unaskedDrops.toNat < 65535 → d.counters.unaskedDrops = c.counters.unaskedDrops → added = fs

theorem exists_offered (fs : List Frame) (c : Console) : ∃ added, Offered fs c (fs.foldl Console.offer c) added := by
  induction fs generalizing c with
  | nil => exact ⟨[], .slnil, by rw [List.append_nil]; rfl, le_rfl, fun _ _ => rfl⟩
  | cons f fs ih =>
    obtain ⟨added, hsub, hlink, hdrops, hall⟩ := ih (c.offer f)
    rw [List.foldl_cons]
    generalize fs.foldl Console.offer (c.offer f) = d at *
    by_cases h : c.txQueue.length < 4
    · have hc : c.offer f = { c with txQueue := c.txQueue ++ [f] } := if_pos h
      rw [hc] at hlink hdrops hall
      refine ⟨f :: added, hsub.cons_cons f, ?_, hdrops, fun h1 h2 => congrArg (f :: ·) (hall h1 h2)⟩
      rw [hlink, List.append_assoc]
      rfl
    · have hc : c.offer f = { c with counters := { c.counters with unaskedDrops := satInc c.counters.unaskedDrops } } := if_neg h
      rw [hc] at hlink hdrops hall
      have hinc := toNat_satInc c.counters.unaskedDrops
      have hmore : (satInc c.counters.unaskedDrops).toNat ≤ d.counters.unaskedDrops.toNat := hdrops
      refine ⟨added, hsub.cons f, hlink, ?_, fun h1 h2 => ?_⟩
      · split at hinc <;> omega
      · rw [if_pos h1] at hinc
        rw [h2] at hmore
        omega

/-! ### The order of the parts -/

/-- A part of the frame and the choice fields under which it comes. -/
abbrev Turn := FrameTask × List Nat × Nat

/-- What the parts carry from one to the next: the state, the report steps left, the items taken. -/
abbrev FrameRun := State × List ReportStep × List Byte

/-- One part taken in its turn. -/
def takeTurn (q : FrameRun) (p : Turn) : FrameRun :=
  ({ q.1 with schedule := p.2.1, freeCount := p.2.2 } : State).frameTask q.2.1 q.2.2 p.1

/-- The parts come in some order, each once. -/
theorem runTasks_order (ts : List FrameTask) (q : FrameRun) :
    ∃ order : List Turn, (order.map Prod.fst).Perm ts ∧ runTasks ts.length ts q.2.1 q.2.2 q.1 = (order.foldl takeTurn q).1 := by
  generalize hn : ts.length = n
  induction n generalizing ts q with
  | zero =>
    obtain rfl := List.length_eq_zero_iff.1 hn
    exact ⟨[], .refl _, rfl⟩
  | succ n ih =>
    obtain ⟨t, ts, rfl⟩ := List.exists_cons_of_length_eq_add_one hn
    have hi : (q.1.choose (ts.length + 1)).1 < (t :: ts).length := choose_lt _ (Nat.succ_pos _)
    generalize hp : q.1.choose (ts.length + 1) = p at hi
    have hpick : ((t :: ts)[p.1]?).getD t = (t :: ts)[p.1] := by rw [List.getElem?_eq_getElem hi, Option.getD_some]
    have hlen : ((t :: ts).eraseIdx p.1).length = n := by rw [List.length_eraseIdx_of_lt hi]; omega
    obtain ⟨order, hperm, hrun⟩ := ih ((t :: ts).eraseIdx p.1) (p.2.frameTask q.2.1 q.2.2 (t :: ts)[p.1]) hlen
    refine ⟨((t :: ts)[p.1], p.2.schedule, p.2.freeCount) :: order, ?_, ?_⟩
    · exact (hperm.cons _).trans (List.getElem_cons_eraseIdx_perm hi)
    · have hstate : ({ q.1 with schedule := p.2.schedule, freeCount := p.2.freeCount } : State) = p.2 := by
        rw [← hp]
        exact (choose_eq _ _).symm
      have hturn : takeTurn q ((t :: ts)[p.1], p.2.schedule, p.2.freeCount) = p.2.frameTask q.2.1 q.2.2 (t :: ts)[p.1] := by
        unfold takeTurn
        rw [hstate]
      rw [List.foldl_cons, hturn, ← hrun, runTasks, hp, hpick]

/-! ### One part -/

/-- What any part of a loop frame leaves alone. -/
structure PartKeeps (s t : State) : Prop where
  le : t.le = s.le
  sen : t.si.sen = s.si.sen
  killAsserted : t.killAsserted = s.killAsserted
  ps : t.ps = s.ps
  protHigh : t.protHigh = s.protHigh
  ms : t.ms =
    { s.ms with
      queue := t.ms.queue, phase := t.ms.phase, doneList := t.ms.doneList, cues := t.ms.cues, holdAlert := t.ms.holdAlert }

theorem PartKeeps.refl (s : State) : PartKeeps s s := ⟨rfl, rfl, rfl, rfl, rfl, rfl⟩

theorem PartKeeps.trans {s t u : State} (h : PartKeeps s t) (g : PartKeeps t u) : PartKeeps s u :=
  ⟨g.le.trans h.le, g.sen.trans h.sen, g.killAsserted.trans h.killAsserted, g.ps.trans h.ps, g.protHigh.trans h.protHigh, by
    rw [g.ms, h.ms]⟩

theorem AlertWork.part {s t : State} (h : AlertWork s t) : PartKeeps s t := by
  obtain ⟨hsi, hle, -, hkill, hps, hprot, -⟩ := h.outside
  exact ⟨hle, by rw [hsi], hkill, hps, hprot, h.ms⟩

/-! A computation clears its axis's new-position flag. -/

theorem alertWork_handOver (s : State) (k : Axis) (p : Passed) : AlertWork s (s.handOver k p) := by
  have hmarked : AlertWork s (if p.marked then s.feedCue (.mark k) else s) := by
    split
    · exact (headWork_feedCue _ _).alert
    · exact .refl s
  unfold State.handOver
  dsimp only
  cases p.ended with
  | none => exact hmarked.trans (alertWork_settle _ _)
  | some n =>
    exact (hmarked.trans (alertWork_settle _ _)).trans
      ((((axisWork_reportSegment _ _ _ _).alert.trans (alertWork_settle _ _)).trans (headWork_feedCue _ _).alert).trans
        (alertWork_settle _ _))

theorem finished_outside (s : State) (k : Axis) (n : Nat) (held : Bool) :
    (s.finished k n held).protHigh = s.protHigh ∧ (s.finished k n held).si = (s.jointStep k).si := by
  refine ⟨?_, (finished_finished s k n held).si⟩
  unfold State.finished
  dsimp only
  split
  · exact ((countSweep_same _ _).2.2.2.2.2.1).trans (worked_protHigh s k n held)
  · exact worked_protHigh s k n held

theorem jointStep_si (s : State) (k : Axis) :
    (s.jointStep k).si = { s.si with enc := s.si.enc.set k { s.si.enc.get k with newPos := false } } := by
  rw [jointStep_eq]

theorem computeAxis_outside (s : State) (k : Axis) (n : Nat) :
    (s.computeAxis k n).1.protHigh = s.protHigh ∧ (s.computeAxis k n).1.si = (s.jointStep k).si := by
  rw [computeAxis_eq]
  have hprep := ((launched_same s k).trans (swapCheck_same _ k)).trans (judge_same _)
  obtain ⟨hsi, -, -, -, -, hprot, -⟩ := hprep
  obtain ⟨hp, hs⟩ := finished_outside ((s.launched k).swapCheck k).judge.1 k n (heldByPause (s.settleKill k) k)
  refine ⟨hp.trans hprot, hs.trans ?_⟩
  rw [jointStep_si, jointStep_si, hsi]

theorem compute_part (s : State) (k : Axis) (n : Nat) : PartKeeps s (s.compute k n) := by
  have h := computeWork s k n
  have hover := (alertWork_handOver (s.computeAxis k n).1 k (s.computeAxis k n).2).part
  refine PartKeeps.trans ⟨h.le, by rw [h.si], h.killAsserted, h.ps, (computeAxis_outside s k n).1, by rw [h.ms]⟩ hover

theorem compute_enc (s : State) (k : Axis) (n : Nat) (j : Axis) :
    (s.compute k n).si.enc.get j = { s.si.enc.get j with newPos := (s.si.enc.get j).newPos && decide (j ≠ k) } := by
  have hsi : (s.compute k n).si = (s.jointStep k).si :=
    (alertWork_handOver _ k _).outside.1.trans (computeAxis_outside s k n).2
  rw [hsi, jointStep_enc, Five.get_set]
  split
  · next h =>
    subst h
    simp
  · next h => simp [h]

theorem compute_noticed (s : State) (k : Axis) (n : Nat) : Noticed s.le.frameNo s.cl (s.compute k n).cl := by
  have h := computeWork s k n
  have hover := (alertWork_handOver (s.computeAxis k n).1 k (s.computeAxis k n).2).noticed
  rw [h.le] at hover
  exact h.noticed.trans hover

theorem alertWork_count (s : State) : AlertWork s (s.countFrame.settle []) := (headWork_countFrame s).alert.trans (alertWork_settle _ _)

/-! ### What the parts leave, in whatever order -/

/-- The kind of the report that a step offers. -/
def ReportStep.kinds : ReportStep → List Byte
  | .offerAxis => [0x40]
  | .offerSensor => [0x41]
  | .queue => [0x42]
  | _ => []

/-- A frame that a loop frame of the number given offers. -/
structure FrameOffer (frame : Word) (f : Frame) : Prop where
  tag : f.tag = 0
  kind : f.kind ∈ ([0x40, 0x41, 0x42, 0x48, 0x49] : List Byte)
  payload : f.payload.take 4 = wordBytes frame

theorem Notice.offer {frame : Word} {f : Frame} (h : Notice frame f) : FrameOffer frame f :=
  ⟨h.tag, by rcases h.kind with hk | hk <;> rw [hk] <;> decide, h.payload⟩

/-- The kinds of reports among frames offered. -/
def reportKinds (fs : List Frame) : List Byte := (fs.map Frame.kind).filter (fun c => c.toNat < 0x48)

theorem reportKinds_append (fs gs : List Frame) : reportKinds (fs ++ gs) = reportKinds fs ++ reportKinds gs := by
  unfold reportKinds
  rw [List.map_append, List.filter_append]

theorem reportKinds_notices {frame : Word} {fs : List Frame} (h : ∀ f ∈ fs, Notice frame f) : reportKinds fs = [] := by
  unfold reportKinds
  refine List.filter_eq_nil_iff.2 fun c hc => ?_
  obtain ⟨f, hf, rfl⟩ := List.mem_map.1 hc
  rcases (h f hf).kind with hk | hk <;> rw [hk] <;> decide

/-- The console `d` is `c` after frames offered, the reports among them being of the kinds given. -/
def FrameOffers (frame : Word) (c d : Console) (kinds : List Byte) : Prop :=
  ∃ fs : List Frame, (∀ f ∈ fs, FrameOffer frame f) ∧ reportKinds fs = kinds ∧ d = fs.foldl Console.offer c

theorem Noticed.offers {frame : Word} {c d : Console} (h : Noticed frame c d) : FrameOffers frame c d [] := by
  obtain ⟨fs, hf, hd⟩ := h
  exact ⟨fs, fun f hm => (hf f hm).offer, reportKinds_notices hf, hd⟩

theorem FrameOffers.trans {frame : Word} {c d e : Console} {a b : List Byte} (h : FrameOffers frame c d a) (g : FrameOffers frame d e b) :
    FrameOffers frame c e (a ++ b) := by
  obtain ⟨fs, hf, hfk, rfl⟩ := h
  obtain ⟨gs, hg, hgk, rfl⟩ := g
  refine ⟨fs ++ gs, fun f hm => ?_, by rw [reportKinds_append, hfk, hgk], by rw [List.foldl_append]⟩
  exact (List.mem_append.1 hm).elim (hf f) (hg f)

theorem frameOffers_report (s : State) (kind : Byte) (content : List Byte) (h : kind ∈ ([0x40, 0x41, 0x42] : List Byte)) :
    FrameOffers s.le.frameNo s.cl (s.offerUnasked (reportOf s kind content)).cl [kind] := by
  refine ⟨[reportOf s kind content], fun f hf => ?_, ?_, ?_⟩
  · obtain rfl := List.mem_singleton.1 hf
    refine ⟨rfl, ?_, rfl⟩
    change kind ∈ _
    rcases List.mem_cons.1 h with rfl | h
    · decide
    · rcases List.mem_cons.1 h with rfl | h
      · decide
      · obtain rfl := List.mem_singleton.1 h
        decide
  · have hlow : kind.toNat < 0x48 := by
      rcases List.mem_cons.1 h with rfl | h
      · decide
      · rcases List.mem_cons.1 h with rfl | h
        · decide
        · obtain rfl := List.mem_singleton.1 h
          decide
    exact List.filter_cons_of_pos (decide_eq_true hlow)
  · rw [offerUnasked_eq]
    rfl

/-- A report step changes the console alone, by its report. -/
theorem reportStep_offers (s : State) (acc : List Byte) (r : ReportStep) :
    (s.reportStep acc r).1 = { s with cl := (s.reportStep acc r).1.cl } ∧
      FrameOffers s.le.frameNo s.cl (s.reportStep acc r).1.cl r.kinds := by
  have hnone : FrameOffers s.le.frameNo s.cl s.cl [] := ⟨[], nofun, rfl, rfl⟩
  have hoffer (f : Frame) : s.offerUnasked f = { s with cl := (s.offerUnasked f).cl } := by rw [offerUnasked_eq]
  cases r with
  | axis k | unit u | encoder k => exact ⟨rfl, hnone⟩
  | offerAxis => exact ⟨hoffer _, frameOffers_report s 0x40 acc (by decide)⟩
  | offerSensor => exact ⟨hoffer _, frameOffers_report s 0x41 acc (by decide)⟩
  | queue => exact ⟨hoffer _, frameOffers_report s 0x42 _ (by decide)⟩

/-- The part is axis `k`'s computation. -/
def FrameTask.computes (k : Axis) : FrameTask → Bool
  | .compute j _ => decide (j = k)
  | _ => false

/-- The number of report parts. -/
def reportTurns (order : List Turn) : Nat := order.countP (fun p => decide (p.1 = .report))

theorem reportTurns_cons (p : Turn) (order : List Turn) : reportTurns (p :: order) = reportTurns [p] + reportTurns order := by
  unfold reportTurns
  rw [← List.singleton_append, List.countP_append]

/-- What a run of parts leaves: `order` has come, and the reports made are those of the steps taken. -/
structure FrameRan (order : List Turn) (q r : FrameRun) : Prop where
  part : PartKeeps q.1 r.1
  enc : ∀ j, r.1.si.enc.get j =
    { q.1.si.enc.get j with newPos := (q.1.si.enc.get j).newPos && !order.any (fun p => p.1.computes j) }
  steps : r.2.1 = q.2.1.drop (reportTurns order)
  offers :
    FrameOffers q.1.le.frameNo q.1.cl r.1.cl
      ((q.2.1.take (reportTurns order)).flatMap ReportStep.kinds)

theorem frameRan_turn (q : FrameRun) (p : Turn) : FrameRan [p] q (takeTurn q p) := by
  obtain ⟨task, sch, fc⟩ := p
  obtain ⟨s, steps, acc⟩ := q
  have hchosen : PartKeeps s { s with schedule := sch, freeCount := fc } := ⟨rfl, rfl, rfl, rfl, rfl, rfl⟩
  cases task with
  | compute k n =>
    refine ⟨hchosen.trans (compute_part _ k n), fun j => ?_, rfl, (compute_noticed { s with schedule := sch, freeCount := fc } k n).offers⟩
    refine (compute_enc { s with schedule := sch, freeCount := fc } k n j).trans ?_
    simp [FrameTask.computes, eq_comm]
  | count =>
    have hwork := alertWork_count { s with schedule := sch, freeCount := fc }
    refine ⟨hchosen.trans hwork.part, fun j => ?_, rfl, hwork.noticed.offers⟩
    have hsi : (takeTurn (s, steps, acc) (.count, sch, fc)).1.si = s.si := hwork.outside.1
    rw [hsi]
    simp [FrameTask.computes]
  | report =>
    cases steps with
    | nil =>
      refine ⟨hchosen, fun j => ?_, rfl, ⟨[], nofun, rfl, rfl⟩⟩
      simp [takeTurn, State.frameTask, FrameTask.computes]
    | cons r rest =>
      obtain ⟨hstate, hoffers⟩ := reportStep_offers { s with schedule := sch, freeCount := fc } acc r
      refine ⟨hchosen.trans ?_, fun j => ?_, rfl, ?_⟩
      · change PartKeeps _ (State.reportStep { s with schedule := sch, freeCount := fc } acc r).1
        rw [hstate]
        exact ⟨rfl, rfl, rfl, rfl, rfl, rfl⟩
      · change (State.reportStep { s with schedule := sch, freeCount := fc } acc r).1.si.enc.get j = _
        rw [hstate]
        simp [FrameTask.computes]
      · change FrameOffers s.le.frameNo s.cl (State.reportStep { s with schedule := sch, freeCount := fc } acc r).1.cl (r.kinds ++ [])
        rw [List.append_nil]
        exact hoffers

theorem frameRan_foldl (order : List Turn) (q : FrameRun) : FrameRan order q (order.foldl takeTurn q) := by
  induction order generalizing q with
  | nil => exact ⟨.refl _, fun j => by simp, rfl, ⟨[], nofun, rfl, rfl⟩⟩
  | cons p order ih =>
    have h := frameRan_turn q p
    have g := ih (takeTurn q p)
    rw [List.foldl_cons]
    refine ⟨h.part.trans g.part, fun j => ?_, ?_, ?_⟩
    · rw [g.enc, h.enc]
      simp [Bool.and_assoc]
    · rw [g.steps, h.steps, List.drop_drop, reportTurns_cons p order]
    · have hoffers := h.offers.trans (h.part.le ▸ g.offers)
      rw [reportTurns_cons p order, List.take_add, List.flatMap_append, ← h.steps]
      exact hoffers

/-! ### The loop frame (R41) -/

theorem reportSteps_kinds (s : State) :
    (reportSteps s).flatMap ReportStep.kinds =
      if s.cl.planInterval ≠ 0 ∧ s.le.frameNo.toNat % s.cl.planInterval = 0 then
        (if s.cl.planSet.getLsbD 0 then [0x40] else []) ++ (if s.cl.planSet.getLsbD 1 then [0x41] else []) ++
          (if s.cl.planSet.getLsbD 2 then [0x42] else [])
      else [] := by
  have hframe : reportFrame s = true ↔ s.cl.planInterval ≠ 0 ∧ s.le.frameNo.toNat % s.cl.planInterval = 0 := by
    unfold reportFrame
    rw [Bool.and_eq_true, decide_eq_true_eq, beq_iff_eq]
  unfold reportSteps
  simp only [hframe]
  split
  · rw [List.flatMap_append, List.flatMap_append]
    cases s.cl.planSet.getLsbD 0 <;> cases s.cl.planSet.getLsbD 1 <;> cases s.cl.planSet.getLsbD 2 <;> rfl
  · rfl

theorem mem_dueTasks (s : State) (k : Axis) :
    (dueTasks s).any (FrameTask.computes k) = dueAt s.le.frameNo (s.axis k).active.n := by
  unfold dueTasks
  rw [List.any_map, Bool.eq_iff_iff, List.any_eq_true]
  constructor
  · rintro ⟨j, hj, hk⟩
    obtain rfl : j = k := of_decide_eq_true hk
    exact (List.mem_filter.1 hj).2
  · exact fun h => ⟨k, List.mem_filter.2 ⟨mem_allAxes k, h⟩, decide_eq_true rfl⟩

/-- The parts of a loop frame, in the order in which they come. -/
theorem takeFrame_order (s : State) :
    ∃ order : List Turn,
      (order.map Prod.fst).Perm
        (dueTasks s.beginFrame ++ [.count] ++ (reportSteps s.beginFrame).map (fun _ => FrameTask.report)) ∧
      s.takeFrame = (order.foldl takeTurn (s.beginFrame, reportSteps s.beginFrame, [])).1 :=
  runTasks_order _ (s.beginFrame, reportSteps s.beginFrame, [])

/-- Every report step has its part. -/
theorem reportTurns_frame {s : State} {steps : List ReportStep} {order : List Turn}
    (hperm : (order.map Prod.fst).Perm (dueTasks s ++ [.count] ++ steps.map (fun _ => FrameTask.report))) :
    reportTurns order = steps.length := by
  have hcount := hperm.countP_eq (fun t => decide (t = FrameTask.report))
  have hdue : (dueTasks s).countP (fun t => decide (t = FrameTask.report)) = 0 := by
    refine List.countP_eq_zero.2 fun t ht => ?_
    obtain ⟨k, -, rfl⟩ := List.mem_map.1 ht
    nofun
  have hreports : (steps.map (fun _ => FrameTask.report)).countP (fun t => decide (t = FrameTask.report)) =
      steps.length := by
    rw [List.countP_eq_length.2 (fun t ht => ?_), List.length_map]
    obtain ⟨r, -, rfl⟩ := List.mem_map.1 ht
    rfl
  rw [List.countP_append, List.countP_append, hdue, hreports, List.countP_map] at hcount
  exact hcount.trans (by rw [show [FrameTask.count].countP _ = 0 from rfl, Nat.add_zero, Nat.zero_add])

/-- What a loop frame leaves of the state that it begins with. -/
theorem takeFrame_ran (s : State) :
    PartKeeps s.beginFrame s.takeFrame ∧
    (∀ k, s.takeFrame.si.enc.get k =
      { s.si.enc.get k with
        newPos := (s.si.enc.get k).newPos && !dueAt s.beginFrame.le.frameNo (s.axis k).active.n }) ∧
    FrameOffers s.beginFrame.le.frameNo s.cl s.takeFrame.cl ((reportSteps s.beginFrame).flatMap ReportStep.kinds) := by
  obtain ⟨order, hperm, hrun⟩ := takeFrame_order s
  have hran := frameRan_foldl order (s.beginFrame, reportSteps s.beginFrame, [])
  rw [hrun]
  have hturns := reportTurns_frame hperm
  refine ⟨hran.part, fun k => ?_, ?_⟩
  · have hany : order.any (fun p => p.1.computes k) = dueAt s.beginFrame.le.frameNo (s.axis k).active.n := by
      have hreports : ((reportSteps s.beginFrame).map (fun _ => FrameTask.report)).any (FrameTask.computes k) = false :=
        List.any_eq_false.2 fun t ht => by
          obtain ⟨r, -, rfl⟩ := List.mem_map.1 ht
          nofun
      have h := hperm.any_eq (f := FrameTask.computes k)
      rw [List.any_map, List.any_append, List.any_append, mem_dueTasks, hreports, Bool.or_false] at h
      exact h.trans (Bool.or_false _)
    rw [hran.enc, hany]
    rfl
  · have hoffers := hran.offers
    rw [hturns, List.take_length] at hoffers
    exact hoffers

/-- Settles O11: the parts' order is free, and no order changes what is stated. -/
theorem loopFrameAdvances : Obligations.LoopFrameAdvances := by
  intro s base frame due planned
  refine ⟨fun ht => ?_, fun ht => ?_⟩
  · obtain ⟨hpart, henc, fs, hfs, hkinds, hcl⟩ := takeFrame_ran s
    have hframe : s.beginFrame.le.frameNo = frame := rfl
    rw [hframe] at henc hfs
    obtain ⟨added, hsub, hlink, -, hall⟩ := exists_offered fs s.cl
    have hplanned : reportKinds fs = planned := hkinds.trans (reportSteps_kinds s.beginFrame)
    rw [← hcl] at hlink hall
    refine ⟨s.takeFrame.restartFrameTimer, added, congrArg Host.Outcome.next (if_pos ht), ?_, hpart.sen, henc, hpart.ps,
      hpart.protHigh, hpart.killAsserted, ?_, hlink, ?_, ?_, fun h1 h2 => ?_⟩
    · rw [State.restartFrameTimer_le, takeFrame_le, beginFrame_le]
      rfl
    · rw [State.restartFrameTimer_ms, hpart.ms]
      exact ⟨rfl, rfl, rfl, rfl, rfl, rfl, rfl, rfl⟩
    · exact fun f hf => ⟨(hfs f (hsub.subset hf)).tag, (hfs f (hsub.subset hf)).kind, (hfs f (hsub.subset hf)).payload⟩
    · rw [← hplanned]
      exact (hsub.map _).filter _
    · rw [← hplanned, hall h1 h2]
      rfl
  · exact congrArg Host.Outcome.next (if_neg (by rw [ht]; nofun))

end Sys2Proof.Machine
end

section
/-! PROOFS. O12: a loop frame at which no axis is due (the head's count, R81, R82, R91, and the reports, R178), and the due computations
one after another (R41, R42). -/

namespace Sys2Proof.Machine

/-! ### The head's count (R91) -/

/-- No frame counts for the head. -/
def Uncounted (s : State) : Prop :=
  progress s = false ∨ (∀ n, s.ms.phase ≠ .dwelling n) ∧ ∀ n, s.ms.phase ≠ .waitingCue (some n)

theorem countFrame_uncounted {s : State} (h : Uncounted s) : s.countFrame = s := by
  unfold State.countFrame
  split
  case isFalse => rfl
  case isTrue hp =>
    obtain ⟨hd, hw⟩ := h.resolve_left (by rw [hp]; nofun)
    cases hphase : s.ms.phase with
    | dwelling n => exact absurd hphase (hd n)
    | waitingCue left =>
      cases left with
      | none => rfl
      | some n => exact absurd hphase (hw n)
    | none | pending | waitingSegments o a => rfl

/-- The head's count at rest, where no frame counts for it. -/
theorem count_still {s : State} (h : AtRest s) (hc : Uncounted s) : s.countFrame.settle [] = s := by
  rw [countFrame_uncounted hc, settle_atRest h]

theorem countFrame_dwelling {s : State} {n : Nat} (hp : progress s = true) (h : s.ms.phase = .dwelling n) :
    s.countFrame = if n ≤ 1 then s.retire .done else s.setPhase (.dwelling (n - 1)) := by
  unfold State.countFrame
  rw [if_pos hp, h]

theorem countFrame_waiting {s : State} {n : Nat} (hp : progress s = true) (h : s.ms.phase = .waitingCue (some n)) :
    s.countFrame = if n ≤ 1 then s.retire .timeout else s.setPhase (.waitingCue (some (n - 1))) := by
  unfold State.countFrame
  rw [if_pos hp, h]

/-- A head that only counts on stands still. -/
theorem AtRest.counted {s : State} (h : AtRest s) {m n : Nat}
    {p : HeadPhase}
    (hp : p = .dwelling n ∧ s.ms.phase = .dwelling m ∨ p = .waitingCue (some n) ∧ s.ms.phase = .waitingCue (some m)) :
    AtRest (s.setPhase p) := by
  refine h.of_headStep ?_ {}
  have hold := (headStep_none_iff s).1 h.2.2.2
  refine (headStep_none_iff _).2 fun hprog e rest hq => ?_
  obtain ⟨-, hcue, -⟩ := hold hprog e rest hq
  rcases hp with ⟨rfl, -⟩ | ⟨rfl, hw⟩
  · exact ⟨nofun, nofun, nofun⟩
  · refine ⟨nofun, fun left mask any consume timeout _ hb => hcue _ mask any consume timeout hw hb, nofun⟩

/-! ### The frame as it begins -/

theorem beginFrame_eq (s : State) :
    s.beginFrame =
      { s with
        le :=
          { s.le with
            frameNo := s.le.frameNo + 1
            ring := (baseTriple s :: s.le.ring).take 64
            heading := s.le.heading + (baseTriple s).yaw.signExtend 32 } } := rfl

theorem AtRest.beginFrame {s : State} (h : AtRest s) : AtRest s.beginFrame := h.same {} {}

theorem Uncounted.beginFrame {s : State} (h : Uncounted s) : Uncounted s.beginFrame := h

/-- The plan makes no report at this frame (R178). -/
theorem reportSteps_eq_nil {s : State}
    (h : s.cl.planInterval = 0 ∨ s.cl.planSet = 0 ∨ s.le.frameNo.toNat % s.cl.planInterval ≠ 0) : reportSteps s = [] := by
  unfold reportSteps
  split
  case isFalse => rfl
  case isTrue hframe =>
    unfold reportFrame at hframe
    rw [Bool.and_eq_true, decide_eq_true_eq, beq_iff_eq] at hframe
    obtain h | h | h := h
    · exact absurd h hframe.1
    · rw [h]
      rfl
    · exact absurd hframe.2 h

theorem reportFrame_of_planned {s : State}
    (h : ¬(s.cl.planInterval = 0 ∨ s.cl.planSet = 0 ∨ s.le.frameNo.toNat % s.cl.planInterval ≠ 0)) : reportFrame s = true := by
  rw [not_or, not_or, not_not] at h
  unfold reportFrame
  rw [Bool.and_eq_true, decide_eq_true_eq, beq_iff_eq]
  exact ⟨h.1, h.2.2⟩

theorem dueTasks_eq_nil {s : State} (h : ∀ k, s.le.frameNo.toNat % (s.axis k).active.n ≠ 0) : dueTasks s = [] := by
  unfold dueTasks
  rw [List.filter_eq_nil_iff.2 fun k _ => ?_, List.map_nil]
  unfold dueAt
  rw [beq_iff_eq]
  exact h k

/-- With nothing due and no report the frame is the head's count. -/
theorem takeFrame_count {s : State} (hdue : ∀ k, (s.le.frameNo + 1).toNat % (s.axis k).active.n ≠ 0)
    (hrep : s.cl.planInterval = 0 ∨ s.cl.planSet = 0 ∨ (s.le.frameNo + 1).toNat % s.cl.planInterval ≠ 0) :
    s.takeFrame = s.beginFrame.countFrame.settle [] := by
  have hd : dueTasks s.beginFrame = [] := dueTasks_eq_nil hdue
  have hr : reportSteps s.beginFrame = [] := reportSteps_eq_nil hrep
  unfold State.takeFrame
  dsimp only
  rw [hd, hr]
  rfl

theorem exec_loopFrame {s t : State} (h : s.le.frameTimer = true) (ht : s.takeFrame = t) :
    exec .loopFrame s = .next t.restartFrameTimer := by
  have hframe : s.timerFrame = s.takeFrame.restartFrameTimer := if_pos h
  exact congrArg Host.Outcome.next (hframe.trans (congrArg State.restartFrameTimer ht))

/-! ### The reports of a frame with no axis due (R178) -/

/-- The frames that report steps offer, from the state's items. -/
def framesOf (s : State) : List ReportStep → List Byte → List Frame
  | [], _ => []
  | .axis k :: r, acc => framesOf s r (acc ++ axisRecord s k)
  | .offerAxis :: r, acc => reportOf s 0x40 acc :: framesOf s r []
  | .unit u :: r, acc => framesOf s r (acc ++ senBytes s u)
  | .encoder k :: r, acc => framesOf s r (acc ++ encBytes s k)
  | .offerSensor :: r, acc => reportOf s 0x41 acc :: framesOf s r []
  | .queue :: r, acc => reportOf s 0x42 (queueRecord s) :: framesOf s r acc

section
variable (s : State) (r : List ReportStep) (acc : List Byte)

theorem framesOf_axes (ks : List Axis) : framesOf s (ks.map .axis ++ r) acc = framesOf s r (acc ++ ks.flatMap (axisRecord s)) := by
  induction ks generalizing acc with
  | nil => rw [List.flatMap_nil, List.append_nil]; rfl
  | cons k ks ih => rw [List.flatMap_cons, ← List.append_assoc]; exact ih _

theorem framesOf_units (us : List SenUnit) : framesOf s (us.map .unit ++ r) acc = framesOf s r (acc ++ us.flatMap (senBytes s)) := by
  induction us generalizing acc with
  | nil => rw [List.flatMap_nil, List.append_nil]; rfl
  | cons u us ih => rw [List.flatMap_cons, ← List.append_assoc]; exact ih _

theorem framesOf_encoders (ks : List Axis) :
    framesOf s (ks.map .encoder ++ r) acc = framesOf s r (acc ++ ks.flatMap (encBytes s)) := by
  induction ks generalizing acc with
  | nil => rw [List.flatMap_nil, List.append_nil]; rfl
  | cons k ks ih => rw [List.flatMap_cons, ← List.append_assoc]; exact ih _

end

/-- The frames of a report frame. -/
theorem framesOf_reportSteps {s : State} (h : reportFrame s = true) :
    framesOf s (reportSteps s) [] =
      (if s.cl.planSet.getLsbD 0 then [reportOf s 0x40 (allAxes.flatMap (axisRecord s))] else []) ++
        (if s.cl.planSet.getLsbD 1 then [reportOf s 0x41 (sensorRecord s)] else []) ++
          (if s.cl.planSet.getLsbD 2 then [reportOf s 0x42 (queueRecord s)] else []) := by
  have haxis (r : List ReportStep) :
      framesOf s (allAxes.map .axis ++ [.offerAxis] ++ r) [] = reportOf s 0x40 (allAxes.flatMap (axisRecord s)) :: framesOf s r [] := by
    rw [List.append_assoc, framesOf_axes, List.nil_append]
    rfl
  have hsensor (r : List ReportStep) :
      framesOf s ([ReportStep.unit .base, .unit .tip, .unit .head] ++ allAxes.map .encoder ++ [.offerSensor] ++ r) [] =
        reportOf s 0x41 (sensorRecord s) :: framesOf s r [] := by
    rw [List.append_assoc, List.append_assoc]
    refine (framesOf_units s _ [] [.base, .tip, .head]).trans ?_
    rw [framesOf_encoders, List.nil_append]
    rfl
  have hqueue (b : Bool) :
      framesOf s (if b then [.queue] else []) [] = if b then [reportOf s 0x42 (queueRecord s)] else [] := by
    cases b <;> rfl
  have hstep (b : Bool) (l r : List ReportStep) (f : Frame) (hf : framesOf s (l ++ r) [] = f :: framesOf s r []) :
      framesOf s ((if b then l else []) ++ r) [] = (if b then [f] else []) ++ framesOf s r [] := by
    cases b
    · rfl
    · exact hf
  unfold reportSteps
  rw [if_pos h, List.append_assoc, hstep _ _ _ _ (haxis _), hstep _ _ _ _ (hsensor _), hqueue, List.append_assoc]

/-- The state `u` is `s` after offers and choices. -/
structure Reporting (s u : State) : Prop where
  state : u = { s with cl := u.cl, schedule := u.schedule, freeCount := u.freeCount }
  setup : u.cl.setup = s.cl.setup
  silence : u.cl.silence = s.cl.silence

theorem offer_setup (c : Console) (f : Frame) : (c.offer f).setup = c.setup ∧ (c.offer f).silence = c.silence := by
  unfold Console.offer
  split <;> exact ⟨rfl, rfl⟩

theorem Reporting.offer {s u : State} (h : Reporting s u) (f : Frame) : Reporting s (u.offerUnasked f) := by
  rw [offerUnasked_eq]
  obtain ⟨hsetup, hsilence⟩ := offer_setup u.cl f
  exact ⟨by rw [h.state], hsetup.trans h.setup, hsilence.trans h.silence⟩

theorem Reporting.chosen {s u : State} (h : Reporting s u) (sch : List Nat) (fc : Nat) :
    Reporting s { u with schedule := sch, freeCount := fc } := ⟨by rw [h.state], h.setup, h.silence⟩

theorem Reporting.atRest {s u : State} (h : Reporting s u) (hs : AtRest s) : AtRest u := by
  rw [h.state]
  exact hs.same { silence := h.silence } {}

theorem Reporting.uncounted {s u : State} (h : Reporting s u) (hs : Uncounted s) : Uncounted u := by
  rw [h.state]
  exact hs

theorem Reporting.senBytes {s u : State} (h : Reporting s u) (v : SenUnit) : senBytes u v = senBytes s v := by
  have hvalid : gravityValid u v = gravityValid s v := by
    unfold gravityValid
    rw [h.setup, h.state]
  unfold Sys2Proof.Machine.senBytes
  rw [hvalid, h.state]

/-- A report step offers the first of its frames, and takes the items that the next is made of. -/
theorem Reporting.step {s u : State} (h : Reporting s u) (acc : List Byte) (r : ReportStep) :
    ∃ fs, (u.reportStep acc r).1 = fs.foldl State.offerUnasked u ∧
      ∀ rest, framesOf s (r :: rest) acc = fs ++ framesOf s rest (u.reportStep acc r).2 := by
  have hframe : u.le.frameNo = s.le.frameNo := by rw [h.state]
  have hreport (kind : Byte) (content : List Byte) : reportOf s kind content = reportOf u kind content := by
    unfold reportOf
    rw [hframe]
  cases r with
  | axis k =>
    have hitems : axisRecord u k = axisRecord s k := by rw [h.state]; rfl
    exact ⟨[], rfl, fun rest => congrArg (framesOf s rest) (congrArg (acc ++ ·) hitems.symm)⟩
  | unit v => exact ⟨[], rfl, fun rest => congrArg (framesOf s rest) (congrArg (acc ++ ·) (h.senBytes v).symm)⟩
  | encoder k =>
    have hitems : encBytes u k = encBytes s k := by rw [h.state]; rfl
    exact ⟨[], rfl, fun rest => congrArg (framesOf s rest) (congrArg (acc ++ ·) hitems.symm)⟩
  | offerAxis => exact ⟨[reportOf u 0x40 acc], rfl, fun rest => congrArg (· :: framesOf s rest []) (hreport 0x40 acc)⟩
  | offerSensor => exact ⟨[reportOf u 0x41 acc], rfl, fun rest => congrArg (· :: framesOf s rest []) (hreport 0x41 acc)⟩
  | queue =>
    have hitems : queueRecord u = queueRecord s := by rw [h.state]; rfl
    refine ⟨[reportOf u 0x42 (queueRecord u)], rfl, fun rest => congrArg (· :: framesOf s rest acc) ?_⟩
    rw [hitems, hreport]

theorem Reporting.offers {s u : State} (h : Reporting s u) (fs : List Frame) : Reporting s (fs.foldl State.offerUnasked u) :=
  keeps_foldl (P := Reporting s) (fun _ f ht => ht.offer f) fs u h

theorem foldl_offerUnasked (fs : List Frame) (s : State) :
    fs.foldl State.offerUnasked s = { s with cl := fs.foldl Console.offer s.cl } := by
  induction fs generalizing s with
  | nil => rfl
  | cons f fs ih => rw [List.foldl_cons, ih, offerUnasked_eq]; rfl

/-- The frames that the steps left offer, and the parts that bring them, the head's count standing still. -/
theorem foldl_reports {s : State} (hs : AtRest s) (hc : Uncounted s) (order : List Turn)
    (horder : ∀ p ∈ order, p.1 = .count ∨ p.1 = .report) (q : FrameRun) (hq : Reporting s q.1) (hlen : reportTurns order = q.2.1.length) :
    ∃ sch fc, (order.foldl takeTurn q).1 =
      { s with cl := (framesOf s q.2.1 q.2.2).foldl Console.offer q.1.cl, schedule := sch, freeCount := fc } := by
  induction order generalizing q with
  | nil =>
    have hnil : q.2.1 = [] := List.length_eq_zero_iff.1 hlen.symm
    refine ⟨q.1.schedule, q.1.freeCount, ?_⟩
    rw [hnil]
    exact hq.state
  | cons p order ih =>
    obtain ⟨task, sch, fc⟩ := p
    obtain ⟨u, steps, acc⟩ := q
    have htail := fun p hp => horder p (List.mem_cons_of_mem _ hp)
    rw [reportTurns_cons] at hlen
    rw [List.foldl_cons]
    have hchosen := hq.chosen sch fc
    rcases horder _ (List.mem_cons_self ..) with rfl | rfl
    · have hturn : takeTurn (u, steps, acc) (.count, sch, fc) = ({ u with schedule := sch, freeCount := fc }, steps, acc) :=
        congrArg (·, steps, acc) (count_still (hchosen.atRest hs) (hchosen.uncounted hc))
      rw [hturn]
      exact ih htail _ hchosen (by rw [← hlen]; exact (Nat.zero_add _).symm)
    · cases steps with
      | nil =>
        have hone : reportTurns [(FrameTask.report, sch, fc)] = 1 := rfl
        rw [hone] at hlen
        change 1 + reportTurns order = 0 at hlen
        omega
      | cons r rest =>
        have hrest : reportTurns order = rest.length := by
          change 1 + reportTurns order = rest.length + 1 at hlen
          omega
        obtain ⟨fs, hstep, hframes⟩ := hchosen.step acc r
        have hturn : takeTurn (u, r :: rest, acc) (.report, sch, fc) =
            ((State.reportStep { u with schedule := sch, freeCount := fc } acc r).1, rest,
              (State.reportStep { u with schedule := sch, freeCount := fc } acc r).2) := rfl
        rw [hturn, hframes rest]
        generalize State.reportStep { u with schedule := sch, freeCount := fc } acc r = x at hstep ⊢
        obtain ⟨t, items⟩ := x
        obtain rfl : t = _ := hstep
        obtain ⟨sch', fc', hrun⟩ := ih htail (_, rest, items) (hchosen.offers fs) hrest
        refine ⟨sch', fc', hrun.trans ?_⟩
        rw [List.foldl_append, foldl_offerUnasked]

/-- A report frame with no axis due, for which no frame counts. -/
theorem takeFrame_reports {s : State} (h : AtRest s) (hc : Uncounted s) (hdue : ∀ k, (s.le.frameNo + 1).toNat % (s.axis k).active.n ≠ 0) :
    ∃ sch fc, s.takeFrame =
      { s.beginFrame with
        cl := (framesOf s.beginFrame (reportSteps s.beginFrame) []).foldl Console.offer s.cl, schedule := sch, freeCount := fc } := by
  have hd : dueTasks s.beginFrame = [] := dueTasks_eq_nil hdue
  obtain ⟨order, hperm, hrun⟩ := takeFrame_order s
  have hturns := reportTurns_frame hperm
  rw [hd, List.nil_append] at hperm
  have horder : ∀ p ∈ order, p.1 = .count ∨ p.1 = .report := fun p hp => by
    rcases List.mem_append.1 (hperm.subset (List.mem_map_of_mem hp)) with hm | hm
    · exact .inl (List.mem_singleton.1 hm)
    · obtain ⟨r, -, hr⟩ := List.mem_map.1 hm
      exact .inr hr.symm
  rw [hrun]
  exact foldl_reports h.beginFrame hc.beginFrame order horder (s.beginFrame, reportSteps s.beginFrame, []) ⟨rfl, rfl, rfl⟩ hturns

/-! ### The due computations, one after another (R42) -/

/-- The head stands still whatever a computation reports to it. -/
def StillHead (s : State) : Prop := progress s = false ∨ s.ms.queue = [] ∧ s.ms.phase = .none

theorem StillHead.uncounted {s : State} (h : StillHead s) : Uncounted s :=
  h.imp_right fun ⟨_, hp⟩ => by rw [hp]; exact ⟨nofun, nofun⟩

theorem StillHead.alert {s t : State} (h : StillHead s) (hw : AlertWork s t) : StillHead t := by
  rcases h with h | ⟨hq, hp⟩
  · left
    have hrun : t.ms.running = s.ms.running := by rw [hw.ms]
    have hkill : t.ms.holdKill = s.ms.holdKill := by rw [hw.ms]
    unfold progress at h ⊢
    rw [hrun, hkill]
    cases ha : s.ms.holdAlert with
    | true => rw [hw.holds ha, Bool.not_true, Bool.and_false]
    | false =>
      rw [ha, Bool.not_false, Bool.and_true] at h
      rw [h, Bool.false_and]
  · have hqueue : t.ms.queue = [] := List.suffix_nil.1 (hq ▸ hw.queue)
    have hcoherent := hw.coherent (by unfold PhaseCoherent; rw [hq, hp]; simp)
    exact .inr ⟨hqueue, by unfold PhaseCoherent at hcoherent; simpa [hqueue] using hcoherent⟩

theorem StillHead.compute {s : State} (h : StillHead s) (k : Axis) (n : Nat) : StillHead (s.compute k n) := by
  have hwork := computeWork s k n
  have hcomputed : StillHead (s.computeAxis k n).1 := by
    rcases h with h | ⟨hq, hp⟩
    · left
      unfold progress at h ⊢
      rw [hwork.ms]
      exact h
    · right
      refine ⟨by rw [hwork.ms]; exact hq, ?_⟩
      rcases hwork.phase with hsame | ⟨⟨o, a, hw⟩, -⟩
      · exact hsame.trans hp
      · rw [hp] at hw
        cases hw
  exact hcomputed.alert (alertWork_handOver _ k _)

/-- The axis whose computation a part is. -/
def FrameTask.axis? : FrameTask → Option Axis
  | .compute k _ => some k
  | _ => none

/-- One computation, from its choice fields. -/
def computeTurn (n : Axis → Nat) (u : State) (p : Axis × List Nat × Nat) : State :=
  ({ u with schedule := p.2.1, freeCount := p.2.2 } : State).compute p.1 (n p.1)

theorem computeTurn_choose (n : Axis → Nat) (u : State) (m : Nat) (order : List (Axis × List Nat × Nat)) (h : order ≠ []) :
    order.foldl (computeTurn n) (u.choose m).2 = order.foldl (computeTurn n) u := by
  obtain ⟨p, order, rfl⟩ := List.exists_cons_of_ne_nil h
  rw [List.foldl_cons, List.foldl_cons]
  unfold computeTurn
  rw [choose_eq]

/-- Computations, with the head's count among them standing still, come one after another. -/
theorem runTasks_computes (n : Axis → Nat) (ts : List FrameTask) {u : State} (hu : AtRest u) (hs : StillHead u)
    (hts : ∀ t ∈ ts, t = .count ∨ ∃ k, t = .compute k (n k)) (hone : ts.countP (fun t => decide (t = .count)) ≤ 1) :
    ∃ order : List (Axis × List Nat × Nat),
      (order.map Prod.fst).Perm (ts.filterMap FrameTask.axis?) ∧ runTasks ts.length ts [] [] u = order.foldl (computeTurn n) u := by
  generalize hlen : ts.length = m
  induction m generalizing ts u with
  | zero =>
    obtain rfl := List.length_eq_zero_iff.1 hlen
    exact ⟨[], .refl _, rfl⟩
  | succ m ih =>
    obtain ⟨t, ts, rfl⟩ := List.exists_cons_of_length_eq_add_one hlen
    have hi : (u.choose (ts.length + 1)).1 < (t :: ts).length := choose_lt _ (Nat.succ_pos _)
    have hu' : AtRest (u.choose (ts.length + 1)).2 := upheld_atRest.choose _ hu
    have hs' : StillHead (u.choose (ts.length + 1)).2 := by
      rw [choose_eq]
      exact hs
    have hsame (order : List (Axis × List Nat × Nat)) (h : order ≠ []) := computeTurn_choose n u (ts.length + 1) order h
    have hsingle (h : ts = []) : (u.choose (ts.length + 1)).2 = u := by rw [h]; rfl
    have hstate := choose_eq u (ts.length + 1)
    have hrun : runTasks (m + 1) (t :: ts) [] [] u =
        let p := u.choose (ts.length + 1)
        let q := p.2.frameTask [] [] (((t :: ts)[p.1]?).getD t)
        runTasks m ((t :: ts).eraseIdx p.1) q.2.1 q.2.2 q.1 := rfl
    generalize u.choose (ts.length + 1) = p at hi hu' hs' hsame hsingle hstate hrun
    have hperm := List.getElem_cons_eraseIdx_perm hi
    have hrest : ((t :: ts).eraseIdx p.1).length = m := by rw [List.length_eraseIdx_of_lt hi]; omega
    dsimp only at hrun
    rw [List.getElem?_eq_getElem hi, Option.getD_some] at hrun
    rw [hrun]
    generalize (t :: ts)[p.1] = x at hperm hrun ⊢
    generalize (t :: ts).eraseIdx p.1 = rest at hperm hrest hrun ⊢
    have hxs : ∀ y ∈ x :: rest, y = .count ∨ ∃ k, y = .compute k (n k) := fun y hy => hts y (hperm.subset hy)
    rw [← hperm.countP_eq, List.countP_cons] at hone
    have htail : ∀ y ∈ rest, y = .count ∨ ∃ k, y = .compute k (n k) := fun y hy => hxs y (List.mem_cons_of_mem _ hy)
    rcases hxs x (List.mem_cons_self ..) with rfl | ⟨k, rfl⟩
    · have hnone : rest.countP (fun t => decide (t = .count)) = 0 := by simpa using hone
      have hcount : p.2.frameTask [] [] .count = (p.2, [], []) :=
        congrArg (fun v => ((v, [], []) : FrameRun)) (count_still hu' hs'.uncounted)
      obtain ⟨order, horder, hfold⟩ := ih rest hu' hs' htail (by omega) hrest
      rw [hcount]
      refine ⟨order, horder.trans (hperm.filterMap FrameTask.axis?), hfold.trans ?_⟩
      by_cases hne : order = []
      · subst hne
        have hempty : rest = [] := by
          refine List.eq_nil_iff_forall_not_mem.2 fun y hy => ?_
          obtain ⟨k, rfl⟩ := (htail y hy).resolve_left (of_decide_eq_false (by simpa using List.countP_eq_zero.1 hnone y hy))
          have := List.filterMap_eq_nil_iff.1 (List.nil_perm.1 horder) _ hy
          cases this
        have hts : ts = [] := by
          have := hperm.length_eq
          rw [hempty] at this
          exact List.length_eq_zero_iff.1 (by simpa using this.symm)
        exact hsingle hts
      · exact hsame order hne
    · have hone' : rest.countP (fun t => decide (t = .count)) ≤ 1 := by simpa using hone
      obtain ⟨order, horder, hfold⟩ := ih rest (upheld_atRest.compute k (n k) hu') (hs'.compute k (n k)) htail hone' hrest
      refine ⟨(k, p.2.schedule, p.2.freeCount) :: order, ?_, ?_⟩
      · exact (horder.cons k).trans (hperm.filterMap FrameTask.axis?)
      · have hturn : computeTurn n u (k, p.2.schedule, p.2.freeCount) = p.2.compute k (n k) := by
          unfold computeTurn
          rw [← hstate]
        rw [List.foldl_cons, hturn]
        exact hfold

/-! ### The items, which the frame's beginning does not change -/

theorem axisRecord_beginFrame (s : State) : axisRecord s.beginFrame = axisRecord s := rfl

theorem sensorRecord_beginFrame (s : State) : sensorRecord s.beginFrame = sensorRecord s := rfl

theorem queueRecord_beginFrame (s : State) : queueRecord s.beginFrame = queueRecord s := rfl

/-- The head retires at the last count. -/
theorem retire_beginFrame {s : State} {e : Entry} {rest : List Entry} (hq : s.ms.queue = e :: rest) (o : EntryOutcome) :
    s.beginFrame.retire o =
      { s.beginFrame with
        ms :=
          { s.ms with
            queue := rest
            phase := if rest = [] then .none else .pending
            doneList :=
              (s.ms.doneList ++ [(⟨e.serial, e.tag, e.body.kind, o, s.le.frameNo + 1⟩ : DoneRecord)]).drop (s.ms.doneList.length - 7) } } := by
  rw [retire_eq (s := s.beginFrame) hq, freshPhase_eq]
  rfl

theorem AtRest.retired {s : State} (h : AtRest s) {m : Sequencer} (hq : m.queue = []) : AtRest { s with ms := m } :=
  h.of_headStep ((headStep_none_iff _).2 fun _ e rest hc => by rw [hq] at hc; cases hc) {}

/-- Settles O12: the frame with nothing due by the head's phase and the plan, and the due computations in turn. -/
theorem loopFrameWithNoAxisDue : Obligations.LoopFrameWithNoAxisDue := by
  refine ⟨fun s h ht hdue => ?_, fun s ht => exec_loopFrame ht rfl, fun s h hstill => ?_⟩
  · intro frame begun le noReport notCounted retired
    have hbegun := h.beginFrame
    have hretired (e : Entry) (rest : List Entry) (o : EntryOutcome) (hq : s.ms.queue = e :: rest) :
        s.beginFrame.retire o = retired e rest o := retire_beginFrame hq o
    have hlast (e : Entry) (rest : List Entry) (o : EntryOutcome) (hr : rest = []) : (retired e rest o).settle [] = retired e rest o :=
      settle_atRest (hbegun.retired hr)
    refine ⟨fun hn => ?_, fun hn hc => ?_⟩
    · have hframe := takeFrame_count hdue hn
      refine ⟨fun hc => ?_, fun n hn hp hphase => ?_, fun n hn hp hphase => ?_, fun n e rest hn hp hq hphase => ⟨?_, hlast e rest .done⟩,
        fun n e rest hn hp hq hphase => ⟨?_, hlast e rest .timeout⟩⟩
      · exact exec_loopFrame ht (hframe.trans (count_still hbegun hc))
      · have hcount : s.beginFrame.countFrame = s.beginFrame.setPhase (.dwelling (n - 1)) :=
          (countFrame_dwelling (s := s.beginFrame) hp hphase).trans (if_neg (by omega))
        rw [hcount, settle_atRest (hbegun.counted (.inl ⟨rfl, hphase⟩))] at hframe
        exact exec_loopFrame ht hframe
      · have hcount : s.beginFrame.countFrame = s.beginFrame.setPhase (.waitingCue (some (n - 1))) :=
          (countFrame_waiting (s := s.beginFrame) hp hphase).trans (if_neg (by omega))
        rw [hcount, settle_atRest (hbegun.counted (.inr ⟨rfl, hphase⟩))] at hframe
        exact exec_loopFrame ht hframe
      · rw [(countFrame_dwelling (s := s.beginFrame) hp hphase).trans (if_pos hn), hretired e rest .done hq] at hframe
        exact exec_loopFrame ht hframe
      · rw [(countFrame_waiting (s := s.beginFrame) hp hphase).trans (if_pos hn), hretired e rest .timeout hq] at hframe
        exact exec_loopFrame ht hframe
    · intro report reports
      obtain ⟨sch, fc, hframe⟩ := takeFrame_reports h hc hdue
      have hreports : framesOf s.beginFrame (reportSteps s.beginFrame) [] = reports := by
        rw [framesOf_reportSteps (reportFrame_of_planned hn), axisRecord_beginFrame, sensorRecord_beginFrame, queueRecord_beginFrame]
        rfl
      rw [hreports] at hframe
      refine ⟨sch, fc, (exec_loopFrame ht hframe).trans ?_⟩
      rw [foldl_offerUnasked]
      rfl
  · intro frame hrep begun n after
    have hr : reportSteps s.beginFrame = [] := reportSteps_eq_nil hrep
    have htasks : s.takeFrame = runTasks (dueTasks s.beginFrame ++ [FrameTask.count]).length
        (dueTasks s.beginFrame ++ [.count]) [] [] s.beginFrame := by
      unfold State.takeFrame
      dsimp only
      rw [hr]
      simp only [List.map_nil, List.append_nil]
    have hdueTask (t : FrameTask) (ht : t ∈ dueTasks s.beginFrame) : ∃ k, t = .compute k (n k) := by
      obtain ⟨k, -, rfl⟩ := List.mem_map.1 ht
      exact ⟨k, rfl⟩
    have hone : (dueTasks s.beginFrame ++ [FrameTask.count]).countP (fun t => decide (t = .count)) ≤ 1 := by
      have hnone : (dueTasks s.beginFrame).countP (fun t => decide (t = .count)) = 0 := by
        refine List.countP_eq_zero.2 fun t ht => ?_
        obtain ⟨k, rfl⟩ := hdueTask t ht
        nofun
      rw [List.countP_append, hnone]
      exact Nat.le_refl 1
    have haxes : (dueTasks s.beginFrame ++ [FrameTask.count]).filterMap FrameTask.axis? =
        allAxes.filter (fun k => decide (frame.toNat % n k = 0)) := by
      rw [List.filterMap_append]
      unfold dueTasks
      rw [List.filterMap_map]
      exact (List.append_nil _).trans (List.filterMap_some ..)
    obtain ⟨order, hperm, hrun⟩ := runTasks_computes n _ h.beginFrame (show StillHead s.beginFrame from hstill)
      (fun t ht => (List.mem_append.1 ht).elim (fun hd => .inr (hdueTask t hd)) (fun hd => .inl (List.mem_singleton.1 hd))) hone
    rw [haxes] at hperm
    exact ⟨order, hperm, htasks.trans hrun⟩

end Sys2Proof.Machine
end

section
/-! PROOFS. O32: the transmit queue (R168), the end of a frame, the waiting reply and the frames behind it (R166, R167), RESTART (R176). -/

namespace Sys2Proof.Machine

/-! ### A reply or a report finds a place, or not -/

theorem deliver_room {s : State} (h : s.cl.txQueue.length < 4) (f : Frame) :
    s.deliver f = { s with cl := { s.cl with txQueue := s.cl.txQueue ++ [f] } } := if_pos (decide_eq_true h)

theorem deliver_full {s : State} (h : 4 ≤ s.cl.txQueue.length) (f : Frame) :
    s.deliver f = { s with cl := { s.cl with dispatcher := .replyWaiting f } } :=
  if_neg (by unfold State.txFree; simpa using h)

theorem satInc_eq_ite (c : Half) : satInc c = if c = 65535 then c else c + 1 := by
  by_cases h : c = 65535
  · rw [if_pos h, h]
    rfl
  · have hlt : c.toNat < 65535 := by
      have hne : c.toNat ≠ 65535 := fun e => h (BitVec.eq_of_toNat_eq e)
      omega
    have hc := toNat_satInc c
    rw [if_pos hlt] at hc
    apply BitVec.eq_of_toNat_eq
    rw [if_neg h, hc, BitVec.toNat_add]
    change _ = (c.toNat + 1) % 65536
    omega

/-! ### The dispatcher goes on (R166) -/

/-- The waiting frames, whatever bound on their number is used. -/
theorem dispatchLoop_enough {n m : Nat} {s : State} (hn : s.cl.requests.length ≤ n) (hm : s.cl.requests.length ≤ m) :
    dispatchLoop n s = dispatchLoop m s := by
  induction n generalizing m s with
  | zero => rw [dispatchLoop_empty _ _ (List.length_eq_zero_iff.1 (Nat.le_zero.1 hn)),
      dispatchLoop_empty _ _ (List.length_eq_zero_iff.1 (Nat.le_zero.1 hn))]
  | succ n ih =>
    cases hq : s.cl.requests with
    | nil => rw [dispatchLoop_empty _ _ hq, dispatchLoop_empty _ _ hq]
    | cons f rest =>
      rw [hq] at hn hm
      by_cases hd : s.cl.dispatcher = .ready
      · obtain ⟨m, rfl⟩ : ∃ k, m = k + 1 := ⟨m - 1, by simp only [List.length_cons] at hm; omega⟩
        have hstep (i : Nat) : dispatchLoop (i + 1) s = dispatchLoop i ((s.setRequests rest).answer f) := by
          rw [dispatchLoop, hd, hq]
        have hrest : ((s.setRequests rest).answer f).cl.requests = rest := answer_requests _ f
        simp only [List.length_cons] at hn hm
        rw [hstep, hstep]
        exact ih (by rw [hrest]; omega) (by rw [hrest]; omega)
      · rw [dispatchLoop_busy hd, dispatchLoop_busy hd]

/-- A frame that is not an accepted RESTART is answered by its reply. -/
theorem answer_plain {s : State} {f : Frame} (h : restartAccepted f (serveFrame s f).status = false) :
    s.answer f =
      (serveFrame s f).state.deliver
        ⟨f.kind + 0x80, f.tag,
          (serveFrame s f).status.code :: (if (serveFrame s f).status.carriesItems then (serveFrame s f).items else [])⟩ :=
  if_neg (by rw [h]; nofun)

theorem restartAccepted_other {f : Frame} (h : f.kind ≠ 0x02) (x : Status) : restartAccepted f x = false := by
  unfold restartAccepted
  rw [decide_eq_false h, Bool.false_and]

/-- RESTART taken while frames wait behind it (R176). -/
theorem serveFrame_restart_busy {s : State} {f : Frame} (hk : f.kind = 0x02) (hp : f.payload = []) (hq : s.cl.requests ≠ []) :
    serveFrame s f = ⟨s, if s.le.park = .parked then .parked else .busy, []⟩ := by
  have hparse : parseRequest f.kind f.payload = .request .restart := by rw [hk, hp]; rfl
  have hrule : serveRestart s = refused s .busy := if_neg (by simpa using hq)
  unfold serveFrame
  rw [hparse]
  change serve s .restart = _
  unfold serve
  by_cases hpark : s.le.park = .parked
  · rw [if_pos ⟨hpark, rfl⟩, if_pos hpark]
    rfl
  · rw [if_neg (fun h => hpark h.1), if_neg hpark]
    exact hrule

/-! ### The end of a frame on the line (R168) -/

theorem frameSent_placeFreed {s : State} {f : Frame} {rest : List Frame} (hq : s.cl.txQueue = f :: rest) (hr : isRestartReply s f = false) :
    s.frameSent = State.placeFreed { s with cl := { s.cl with txQueue := rest } } := by
  unfold State.frameSent
  rw [hq]
  exact if_neg (by rw [hr]; nofun)

theorem isRestartReply_dispatcher {s : State} (h : s.cl.dispatcher ≠ .restarting none) (f : Frame) : isRestartReply s f = false := by
  unfold isRestartReply
  rw [decide_eq_false h]
  rfl

theorem frameSent_ready {s : State} {f : Frame} {rest : List Frame} (hq : s.cl.txQueue = f :: rest) (hd : s.cl.dispatcher = .ready)
    (hreq : s.cl.requests = []) : s.frameSent = { s with cl := { s.cl with txQueue := rest } } := by
  rw [frameSent_placeFreed hq (isRestartReply_dispatcher (by rw [hd]; nofun) f)]
  unfold State.placeFreed
  rw [hd]
  exact dispatchLoop_empty 5 _ hreq

/-- The state in which a waiting reply has taken the place freed. -/
def State.replyEntered (s : State) (rest : List Frame) (r : Frame) : State :=
  { s with cl := { s.cl with txQueue := rest ++ [r], dispatcher := .ready } }

theorem frameSent_replyWaiting {s : State} {f r : Frame} {rest : List Frame} (hq : s.cl.txQueue = f :: rest)
    (hd : s.cl.dispatcher = .replyWaiting r) : s.frameSent = (s.replyEntered rest r).dispatch := by
  rw [frameSent_placeFreed hq (isRestartReply_dispatcher (by rw [hd]; nofun) f)]
  unfold State.placeFreed
  rw [hd]
  rfl

theorem frameSent_restarting {s : State} {f r : Frame} {rest : List Frame} (hq : s.cl.txQueue = f :: rest)
    (hd : s.cl.dispatcher = .restarting (some r)) :
    s.frameSent = { s with cl := { s.cl with txQueue := rest ++ [r], dispatcher := .restarting none } } := by
  rw [frameSent_placeFreed hq (isRestartReply_dispatcher (by rw [hd]; nofun) f)]
  unfold State.placeFreed
  rw [hd]
  rfl

theorem frameSent_other {s : State} {f : Frame} {rest : List Frame} (hq : s.cl.txQueue = f :: rest)
    (hd : s.cl.dispatcher = .restarting none) (hk : f.kind ≠ 0x82) : s.frameSent = { s with cl := { s.cl with txQueue := rest } } := by
  have hr : isRestartReply s f = false := by
    unfold isRestartReply
    rw [decide_eq_false hk, Bool.and_false]
    rfl
  rw [frameSent_placeFreed hq hr]
  unfold State.placeFreed
  rw [hd]

/-- The oldest waiting frame is served once the waiting reply has its place. -/
theorem dispatch_replyEntered {s : State} {rest : List Frame} {r oldest : Frame} {more : List Frame} (hreq : s.cl.requests = oldest :: more) :
    (s.replyEntered rest r).dispatch = dispatchLoop 4 (((s.replyEntered rest r).setRequests more).answer oldest) := by
  unfold State.dispatch
  rw [dispatchLoop, show (s.replyEntered rest r).cl.requests = oldest :: more from hreq]
  rfl

/-- What becomes of the frames behind one that was answered: its reply held, or queued and the dispatcher going on. -/
theorem dispatchLoop_delivered {t : State} {more : List Frame} (hreq : t.cl.requests = more) (hmore : more.length ≤ 3) (reply : Frame) :
    (4 ≤ t.cl.txQueue.length →
      dispatchLoop 4 (t.deliver reply) = { t with cl := { t.cl with dispatcher := .replyWaiting reply } }) ∧
    (t.cl.txQueue.length < 4 →
      dispatchLoop 4 (t.deliver reply) = State.dispatch { t with cl := { t.cl with txQueue := t.cl.txQueue ++ [reply] } }) := by
  refine ⟨fun h => ?_, fun h => ?_⟩
  · rw [deliver_full h]
    exact dispatchLoop_busy nofun
  · rw [deliver_room h]
    exact dispatchLoop_enough (by change t.cl.requests.length ≤ 4; rw [hreq]; omega) (by change t.cl.requests.length ≤ 5; rw [hreq]; omega)

/-- RESTART on a ready link (R176). -/
theorem answer_restart {s : State} (hq : s.cl.requests = []) (hp : s.le.park ≠ .parked) (tag : Byte) :
    s.answer ⟨0x02, tag, []⟩ = s.deliverRestart ⟨0x82, tag, [0]⟩ := by
  have hserve : serveFrame s ⟨0x02, tag, []⟩ = done s := by
    have hrule : serveRestart s = done s := if_pos (by rw [hq]; rfl)
    change serve s .restart = _
    unfold serve
    rw [if_neg (fun h => hp h.1)]
    exact hrule
  unfold State.answer
  rw [hserve]
  rfl

/-- Settles O32: the queue's two cases, the end of a frame by the dispatcher's state, and RESTART. -/
theorem frameSentAndRestart : Obligations.FrameSentAndRestart := by
  intro tag s sent ended entered drops
  have hended {t : State} (h : s.frameSent = t) : ended = .next t := congrArg Host.Outcome.next h
  refine ⟨fun f => ⟨fun h => ⟨deliver_room h f, if_pos (decide_eq_true h)⟩, fun h => ⟨deliver_full h f, ?_⟩⟩, fun hq => hended ?_,
    fun f rest hq hd hr => hended (frameSent_ready hq hd hr), fun f rest r hq hd hr => hended ?_,
    fun f rest r oldest more hq hd hreq hmore => ?_, fun f rest r hq hd => hended (frameSent_restarting hq hd),
    fun f rest hq hd hk => hended (frameSent_other hq hd hk), fun rest hq hd hk => hended ?_, fun h => ?_⟩
  · have hoffer : s.offerUnasked f =
        { s with cl := { s.cl with counters := { s.cl.counters with unaskedDrops := satInc s.cl.counters.unaskedDrops } } } :=
      if_neg (by unfold State.txFree; simpa using h)
    rw [hoffer, satInc_eq_ite]
  · unfold State.frameSent
    rw [hq]
  · rw [frameSent_replyWaiting hq hd]
    exact dispatchLoop_empty 5 _ hr
  · intro u x reply full queued
    have hrequests : x.state.cl.requests = more := (serveFrame_link u oldest).2.2.1
    have hrun : s.frameSent = dispatchLoop 4 (u.answer oldest) := (frameSent_replyWaiting hq hd).trans (dispatch_replyEntered hreq)
    obtain ⟨hfull, hroom⟩ := dispatchLoop_delivered hrequests hmore reply
    have hplain (hx : restartAccepted oldest x.status = false) : dispatchLoop 4 (u.answer oldest) = dispatchLoop 4 (x.state.deliver reply) :=
      congrArg (dispatchLoop 4) (answer_plain hx)
    refine ⟨fun hk h4 => hended ?_, fun hk h4 => ⟨hended ?_, fun hm => dispatchLoop_empty 5 _ (hrequests.trans hm)⟩, fun hk hp hm => ?_⟩
    · exact hrun.trans ((hplain (restartAccepted_other hk _)).trans (hfull h4))
    · exact hrun.trans ((hplain (restartAccepted_other hk _)).trans (hroom h4))
    · have hx : x = ⟨u, if s.le.park = .parked then .parked else .busy, []⟩ := serveFrame_restart_busy hk hp hm
      have hstate : x.state = u := congrArg Served.state hx
      have hrefused : restartAccepted oldest x.status = false := by
        unfold restartAccepted
        rw [hx]
        dsimp only
        split <;> exact Bool.and_false _
      refine ⟨hx, fun h4 => hended ?_, fun h4 => hended ?_⟩
      · exact hrun.trans ((hplain hrefused).trans (hfull (by rw [hstate]; exact h4)))
      · exact hrun.trans ((hplain hrefused).trans (hroom (by rw [hstate]; exact h4)))
  · rw [frameSent_restart hd hq]
    exact resetWith_high (by rw [hk]; rfl) s .restart
  · obtain ⟨hready, hpark⟩ := h
    have hfed : s.feedRequest tag .restart = s.arrived.deliverRestart ⟨0x82, tag, [0]⟩ :=
      (feedFrame_ready (f := ⟨0x02, tag, []⟩) hready (Nat.zero_le _)).trans (answer_restart (s := s.arrived) hready.2.2.1 hpark tag)
    refine congrArg Host.Outcome.next (hfed.trans ?_)
    by_cases hroom : s.cl.txQueue.length < 4
    · rw [if_pos hroom]
      exact if_pos (decide_eq_true hroom)
    · rw [if_neg hroom]
      exact if_neg (fun h => hroom (of_decide_eq_true h))

end Sys2Proof.Machine
end

section
/-! PROOFS. What comes to rest after an image is applied leaves the tuning copies alone (R36, R190): neither a taking nor a move of the
head writes a staged record, and only the end of a sweep writes an active one. -/

namespace Sys2Proof.Machine

/-- The staged records and the pending swaps are the same; with no sweep running, so are the active records. -/
structure TuningKept (s t : State) : Prop where
  staged : ∀ k, (t.axis k).staged = (s.axis k).staged
  swap : ∀ k, (t.axis k).swapPending = (s.axis k).swapPending
  active : s.sw.running = false → t.sw.running = false ∧ ∀ k, (t.axis k).active = (s.axis k).active

theorem TuningKept.refl (s : State) : TuningKept s s := ⟨fun _ => rfl, fun _ => rfl, fun h => ⟨h, fun _ => rfl⟩⟩

theorem TuningKept.trans {s t u : State} (h : TuningKept s t) (g : TuningKept t u) : TuningKept s u where
  staged k := (g.staged k).trans (h.staged k)
  swap k := (g.swap k).trans (h.swap k)
  active hr := ⟨(g.active (h.active hr).1).1, fun k => ((g.active (h.active hr).1).2 k).trans ((h.active hr).2 k)⟩

/-- What touches neither the axes nor the sweep. -/
theorem TuningKept.untouched {s t : State} (haxes : t.axes = s.axes := by rfl) (hsw : t.sw = s.sw := by rfl) : TuningKept s t := by
  have haxis (k : Axis) : t.axis k = s.axis k := congrArg (Five.get · k) haxes
  exact ⟨fun k => by rw [haxis], fun k => by rw [haxis], fun h => ⟨by rw [hsw]; exact h, fun k => by rw [haxis]⟩⟩

theorem tuningKept_setAxis {s : State} {k : Axis} {y : AxisRec} (hstaged : y.staged = (s.axis k).staged)
    (hswap : y.swapPending = (s.axis k).swapPending) (hactive : s.sw.running = false → y.active = (s.axis k).active) :
    TuningKept s (s.setAxis k y) := by
  have hget {α : Type} (f : AxisRec → α) (hf : f y = f (s.axis k)) (j : Axis) : f ((s.setAxis k y).axis j) = f (s.axis j) := by
    rw [State.axis_setAxis]
    split
    · next h => rw [hf, h]
    · rfl
  exact ⟨hget AxisRec.staged hstaged, hget AxisRec.swapPending hswap, fun h => ⟨h, hget AxisRec.active (hactive h)⟩⟩

theorem tuningKept_sweepAborted (s : State) (k : Axis) : TuningKept s (s.sweepAborted k) := by
  have haxis (j : Axis) := sweepAborted_axis s k j
  refine ⟨fun j => by rw [haxis], fun j => by rw [haxis], fun h => ⟨?_, fun j => by rw [haxis]⟩⟩
  have hstill : sweeping s k = false := by
    unfold sweeping
    rw [h]
    rfl
  unfold State.sweepAborted
  rw [hstill]
  exact h

/-- An axis leaves its motion, and a sweep on it may end. -/
theorem tuningKept_leaves {s : State} {k : Axis} {y : AxisRec} (e : Bool) (hstaged : y.staged = (s.axis k).staged)
    (hswap : y.swapPending = (s.axis k).swapPending) (hactive : s.sw.running = false → y.active = (s.axis k).active) :
    TuningKept s (s.leaves k y e) := by
  have hmotion : TuningKept s (s.leaveMotion k y (heldSerials (s.axis k))) := (tuningKept_setAxis hstaged hswap hactive).trans .untouched
  cases e with
  | false => exact hmotion
  | true => exact hmotion.trans (tuningKept_sweepAborted _ k)

theorem savedFor_still {s : State} (h : s.sw.running = false) (k : Axis) : savedFor s k = none := by
  unfold savedFor sweeping
  rw [h]
  rfl

/-- A transition writes no tuning. -/
theorem transitioned_tuning (a : AxisRec) (target : TargetMode) :
    (transitioned a target).staged = a.staged ∧ (transitioned a target).swapPending = a.swapPending ∧
      (transitioned a target).active = a.active := by
  cases target with
  | off | stopped => exact ⟨rfl, rfl, rfl⟩
  | hold | rate | follow =>
    unfold transitioned
    dsimp only
    split <;> exact ⟨rfl, rfl, rfl⟩

theorem withD_tuning (x : AxisRec) (d : Option Nat) :
    (withD x d).staged = x.staged ∧ (withD x d).swapPending = x.swapPending ∧ (d = none → (withD x d).active = x.active) := by
  cases d with
  | none => exact ⟨rfl, rfl, fun _ => rfl⟩
  | some d => exact ⟨rfl, rfl, nofun⟩

theorem tuningKept_makeTransition (s : State) (k : Axis) (target : TargetMode) : TuningKept s (s.makeTransition k target) := by
  rw [makeTransition_eq]
  obtain ⟨hstaged, hswap, hactive⟩ := withD_tuning (s.axis k) (savedFor s k)
  have hleft (x : AxisRec) := transitioned_tuning { x with segment := none, launch := none } target
  unfold movedTo
  split
  · exact tuningKept_leaves _ ((hleft _).1.trans hstaged) ((hleft _).2.1.trans hswap)
      (fun h => (hleft _).2.2.trans (hactive (savedFor_still h k)))
  · exact tuningKept_leaves _ (hleft _).1 (hleft _).2.1 (fun _ => (hleft _).2.2)

theorem tuningKept_enterSafe (s : State) (k : Axis) : TuningKept s (s.enterSafe k) := by
  have hsaved : (withSavedD s k (s.axis k)).staged = (s.axis k).staged ∧ (withSavedD s k (s.axis k)).swapPending = (s.axis k).swapPending ∧
      (s.sw.running = false → (withSavedD s k (s.axis k)).active = (s.axis k).active) := by
    unfold withSavedD
    split
    · next h => exact ⟨rfl, rfl, fun hr => by rw [(running_of_sweeping h).1] at hr; cases hr⟩
    · exact ⟨rfl, rfl, fun _ => rfl⟩
  cases h : isActive (s.axis k).mode with
  | true =>
    rw [enterSafe_active h]
    exact tuningKept_leaves true hsaved.1 hsaved.2.1 hsaved.2.2
  | false =>
    rw [enterSafe_inactive h]
    exact .refl s

/-! ### The moves of the head -/

theorem tuningKept_retire (s : State) (o : EntryOutcome) : TuningKept s (s.retire o) := by
  unfold State.retire
  split
  · exact .refl s
  · exact .untouched

theorem tuningKept_launchAxis (e : Entry) (dn : Nat) (sh : Shape) (em : EndMode) (p : State × AxisSet) (k : Axis) :
    TuningKept p.1 (launchAxis e dn sh em p k).1 := by
  have hhand (g : Segment) : TuningKept p.1 (p.1.handLaunch k g) := by
    unfold State.handLaunch
    dsimp only
    split
    · rw [reportSegment_eq]
      exact (tuningKept_setAxis (y := { p.1.axis k with launch := some g }) rfl rfl (fun _ => rfl)).trans .untouched
    · exact tuningKept_setAxis rfl rfl (fun _ => rfl)
  unfold launchAxis
  dsimp only
  split
  · split
    · exact hhand _
    · exact .refl _
  · exact .refl _

theorem tuningKept_beginLaunch (s : State) (e : Entry) (dn : Nat) (sh : Shape) (em : EndMode) (w : Bool) :
    TuningKept s (s.beginLaunch e dn sh em w) := by
  have hall : TuningKept s (allAxes.foldl (launchAxis e dn sh em) (s, 0)).1 :=
    keeps_foldl (P := fun q : State × AxisSet => TuningKept s q.1) (fun q k hq => hq.trans (tuningKept_launchAxis e dn sh em q k))
      allAxes (s, 0) (.refl s)
  unfold State.beginLaunch
  dsimp only
  split_ifs
  · exact hall.trans (tuningKept_retire _ _)
  · exact hall.trans .untouched
  · exact hall.trans (tuningKept_retire _ _)

theorem tuningKept_retireWait (s : State) (m : Byte) (a c : Bool) : TuningKept s (s.retireWait m a c) := by
  unfold State.retireWait
  split
  · exact TuningKept.trans (t := s.writeCues (s.ms.cues &&& ~~~(matchedCues s.ms.cues m a))) .untouched (tuningKept_retire _ _)
  · exact tuningKept_retire s _

theorem tuningKept_modeAll (target : TargetMode) (l : List Axis) (p : State × Bool) :
    TuningKept p.1 (l.foldl (modeAxis target) p).1 := by
  refine keeps_foldl (P := fun q : State × Bool => TuningKept p.1 q.1) (fun q k hq => hq.trans ?_) l p (.refl _)
  unfold modeAxis
  split
  · exact tuningKept_makeTransition _ _ _
  · exact .refl _

theorem tuningKept_beginEntry (s : State) (e : Entry) : TuningKept s (s.beginEntry e) := by
  unfold State.beginEntry
  split
  · exact tuningKept_beginLaunch s _ _ _ _ _
  · exact tuningKept_beginLaunch s _ _ _ _ _
  · exact .untouched
  · split
    · exact tuningKept_retireWait s _ _ _
    · exact .untouched
  · exact TuningKept.trans (t := s.writeCues _) .untouched (tuningKept_retire _ _)
  · exact (tuningKept_modeAll _ _ (s, false)).trans (tuningKept_retire _ _)

theorem tuningKept_headStep {s t : State} (h : s.headStep = some t) : TuningKept s t := by
  obtain ⟨-, e, rest, -, hcase⟩ := headStep_cases h
  rcases hcase with ⟨-, rfl⟩ | ⟨left, mask, any, consume, timeout, -, -, -, rfl⟩ | ⟨aborted, -, rfl⟩
  · exact tuningKept_beginEntry s e
  · exact tuningKept_retireWait s _ _ _
  · exact tuningKept_retire s _

/-! ### Takings, and all that comes to rest -/

theorem tuningKept_feedCue (s : State) (sel : Selector) : TuningKept s (s.feedCue sel) :=
  changeCues_keeps (P := TuningKept s) (fun t c h => h.trans (.untouched (t := t.writeCues c)))
    (fun _ _ h g => h.trans (tuningKept_headStep g)) s _ (.refl s)

theorem tuningKept_inService (s : State) (level : Level) (src : Source) : TuningKept s (s.inService level src) := by
  have haxes := inService_axes s level src
  cases level with
  | two => exact .untouched haxes (inService_sw s .two src)
  | one =>
    have haxis (k : Axis) : (s.inService .one src).axis k =
        if hasAxis (affectedAxes s src) k then { s.axis k with damp := true } else s.axis k := by
      unfold State.axis
      rw [haxes]
      exact Five.get_mapAxis _ _ _
    have hget {α : Type} (f : AxisRec → α) (hf : ∀ x : AxisRec, f { x with damp := true } = f x) (k : Axis) :
        f ((s.inService .one src).axis k) = f (s.axis k) := by
      rw [haxis]
      split
      · exact hf _
      · rfl
    exact ⟨hget AxisRec.staged (fun _ => rfl), hget AxisRec.swapPending (fun _ => rfl),
      fun h => ⟨by rw [inService_sw]; exact h, hget AxisRec.active (fun _ => rfl)⟩⟩

theorem tuningKept_take (s : State) (level : Level) (src : Source) : TuningKept s (s.take level src) := by
  have hacted : TuningKept s (s.acted level src) := by
    cases level with
    | one => exact (tuningKept_inService s .one src).trans (tuningKept_feedCue _ _)
    | two =>
      exact ((tuningKept_inService s .two src).trans (tuningKept_feedCue _ _)).trans
        (keeps_foldl (P := TuningKept _) (fun t k h => h.trans (tuningKept_enterSafe t k)) _ _ (.refl _))
  exact hacted.trans (.untouched (take_axes s level src) (take_sw s level src))

theorem tuningKept_settle (s : State) (due : List Due) : TuningKept s (s.settle due) :=
  settle_keeps (P := TuningKept s) (fun t h => h.trans (.untouched (t := t.dropFallen)))
    (fun t src h => h.trans (.untouched (t := t.recordRise src)))
    (fun t n h => h.trans (.untouched (State.choose_axes t n) (State.choose_sw t n)))
    (fun t d h => h.trans (.untouched (by rw [markDue_alc]) (by rw [markDue_alc]))) (fun t l src h => h.trans (tuningKept_take t l src))
    (fun _ _ h g => h.trans (tuningKept_headStep g)) due s (.refl s)

end Sys2Proof.Machine
end

section
/-! PROOFS. O50: an image applied, part by part (R190); the tuning record that it loads (R32, R190); STORE_LOAD's checks (R189). -/

namespace Sys2Proof.Machine

/-! ### The image written, before anything reacts -/

/-- The setup record of an image is in force at once: every limit is judged. -/
theorem writeSetup_all (s : State) (x : Setup) :
    s.writeSetup x ⟨true, true, true, true⟩ =
      let silent := silenceDue { s with cl := { s.cl with setup := x } }
      let limit (u : SenUnit) : Nat := 15625 * x.staleLimit.get u
      { s with
        axes := s.axes.mapAxis (fun _ a => if silent = true ∧ a.mode = .rate then { a with rdTarget := 0 } else a)
        cl :=
          { s.cl with
            setup := x
            silence := if silent then .expired else s.cl.silence
            silenceElapsed := if silent then 0 else s.cl.silenceElapsed }
        si := ((s.si.rejudged .base (limit .base)).rejudged .tip (limit .tip)).rejudged .head (limit .head) } := by
  unfold State.writeSetup
  dsimp only
  rw [if_pos rfl, if_pos rfl, if_pos rfl, if_pos rfl, rejudgeSilence_eq, rejudgeStale_eq, rejudgeStale_eq, rejudgeStale_eq]
  rfl

theorem rejudged_sen (x : SensorIntake) (b t h : Nat) (u : SenUnit) :
    (((x.rejudged .base b).rejudged .tip t).rejudged .head h).sen.get u =
      (x.sen.get u).restaled (match u with | .base => b | .tip => t | .head => h) := by
  cases u <;> rfl

theorem rejudged_enc (x : SensorIntake) (b t h : Nat) (k : Axis) :
    (((x.rejudged .base b).rejudged .tip t).rejudged .head h).enc.get k =
      (x.enc.get k).restaled (if k = .swing ∨ k = .lift then t else h) := by
  cases k <;> rfl

/-- The parts of an image that no limit brings about anything in. -/
def State.imageParts (s : State) (img : Image) : State :=
  (((s.loadTuning img).loadWaypoints img).configure (allSources.map (loadedConfig img))).setCueTable (loadedTable img)

theorem writeImage_eq (s : State) (img : Image) :
    s.writeImage img = (s.imageParts img).writeSetup (loadedSetup img) ⟨true, true, true, true⟩ := rfl

theorem imageParts_source (s : State) (img : Image) (src : Source) :
    (s.imageParts img).source src =
      let x := s.source src
      let c := loadedConfig img src
      let latched := c.latched || isEvent src
      { x with
        level := c.level, enable := c.enable, latched := latched
        pending := if x.latched && !latched then x.truth else x.pending } := by
  have hone : (allSources.map (loadedConfig img)).filter (fun c => decide (c.source = src)) = [loadedConfig img src] := by
    rw [List.filter_map]
    exact congrArg (List.map (loadedConfig img)) (filter_only (src := src) (fun j => decide_eq_true_iff))
  have hsource : (s.imageParts img).source src = _ := source_configure ((s.loadTuning img).loadWaypoints img) _ src
  rw [hsource, hone]
  change rekeyed s.alc.sources src (configured (s.source src) (loadedConfig img src)) = _
  unfold rekeyed configured
  change (if ((s.source src).latched && !((loadedConfig img src).latched || isEvent src)) = true then _ else _) = _
  dsimp only
  cases (s.source src).latched && !((loadedConfig img src).latched || isEvent src) <;> rfl

theorem imageParts_axis (s : State) (img : Image) (k : Axis) :
    (s.imageParts img).axis k = { s.axis k with staged := loadedTuning img (axisIndex k), swapPending := true } :=
  Five.get_mapAxis _ _ _

theorem silence_reached (s : State) (x : Setup) :
    silenceDue { s with cl := { s.cl with setup := x } } =
      decide (s.cl.silence = .running ∧ 32000 * x.silenceLimit ≤ s.cl.silenceElapsed) := by
  rw [Bool.eq_iff_iff, decide_eq_true_iff]
  exact silenceDue_iff _

/-- An image written, each part read at its owner (R190). -/
theorem writeImage_parts (s : State) (img : Image) :
    let w := s.writeImage img
    let setup := loadedSetup img
    let silent : Bool := decide (s.cl.silence = .running ∧ 32000 * setup.silenceLimit ≤ s.cl.silenceElapsed)
    let limit (u : SenUnit) : Nat := 15625 * setup.staleLimit.get u
    w =
        { s.imageParts img with
          axes := (s.imageParts img).axes.mapAxis (fun _ a => if silent = true ∧ a.mode = .rate then { a with rdTarget := 0 } else a)
          cl :=
            { s.cl with
              setup := setup
              silence := if silent then .expired else s.cl.silence
              silenceElapsed := if silent then 0 else s.cl.silenceElapsed }
          si := ((s.si.rejudged .base (limit .base)).rejudged .tip (limit .tip)).rejudged .head (limit .head) } := by
  intro w setup silent limit
  have hsilent : silenceDue { s.imageParts img with cl := { (s.imageParts img).cl with setup := setup } } = silent :=
    silence_reached (s.imageParts img) setup
  refine (writeSetup_all (s.imageParts img) setup).trans ?_
  dsimp only
  rw [hsilent]
  rfl

theorem writeImage_axis (s : State) (img : Image) (k : Axis) :
    let silent : Bool := decide (s.cl.silence = .running ∧ 32000 * (loadedSetup img).silenceLimit ≤ s.cl.silenceElapsed)
    let x := s.axis k
    (s.writeImage img).axis k =
      { x with
        staged := loadedTuning img (axisIndex k), swapPending := true
        rdTarget := if silent = true ∧ x.mode = .rate then 0 else x.rdTarget } := by
  intro silent x
  rw [writeImage_parts]
  refine (Five.get_mapAxis _ _ _).trans ?_
  change (if silent = true ∧ ((s.imageParts img).axis k).mode = .rate then { (s.imageParts img).axis k with rdTarget := 0 }
    else (s.imageParts img).axis k) = _
  rw [imageParts_axis]
  change (if silent = true ∧ x.mode = .rate then _ else _) = _
  split <;> rfl

theorem loadedLocks (locks : BitVec 4) (h : Half) {p : Nat} (hp : p < 4) :
    (locks ||| h.setWidth 4).getLsbD p = (locks.getLsbD p || h.getLsbD p) := by
  rw [BitVec.getLsbD_or, BitVec.getLsbD_setWidth, decide_eq_true hp, Bool.true_and]

/-! ### The tuning record that an image loads (R32, R190) -/

/-- The record before the cross-clamps: every field set from its value. -/
def Tuning.loadedFields (v : Nat → Int) : Tuning :=
  (List.range 30).foldl (fun r n => r.setField n (loadedField n (v n))) (Tuning.reset 1)

theorem field_foldl_loaded (v : Nat → Int) (l : List Nat) (hl : ∀ n ∈ l, n < 30) (r : Tuning) (m : Nat) :
    (l.foldl (fun r n => r.setField n (loadedField n (v n))) r).field m = if m ∈ l then loadedField m (v m) else r.field m := by
  induction l using List.reverseRecOn with
  | nil => rfl
  | append_singleton l n ih =>
    have ih := ih (fun n hn => hl n (List.mem_append_left _ hn))
    have hn := hl n (List.mem_append_right _ (List.mem_singleton_self n))
    rw [List.foldl_append, List.foldl_cons, List.foldl_nil]
    by_cases hm : m = n
    · subst hm
      rw [Tuning.field_setField_same _ hn (fieldInRange_loadedField m (v m)), if_pos (by simp)]
    · rw [Tuning.field_setField_other _ hm, ih]
      simp [hm]

theorem field_loadedFields (v : Nat → Int) {n : Nat} (hn : n < 30) : (Tuning.loadedFields v).field n = loadedField n (v n) :=
  (field_foldl_loaded v _ (fun _ h => List.mem_range.1 h) _ n).trans (if_pos (List.mem_range.2 hn))

theorem ofLoaded_eq (v : Nat → Int) : Tuning.ofLoaded ((List.range 30).map v) = (Tuning.loadedFields v).crossClamp := by
  have hzip : ((List.range 30).map v).zipIdx = (List.range 30).map (fun n => (v n, n)) := by
    refine List.ext_getElem (by simp) fun i h1 h2 => ?_
    simp
  unfold Tuning.ofLoaded Tuning.loadedFields
  rw [hzip, List.foldl_map]

theorem loadedTuning_eq (img : Image) (q : Nat) :
    loadedTuning img q = (Tuning.loadedFields (fun f => (img.word (60 * q + 2 * f)).toInt)).crossClamp := ofLoaded_eq _

/-- The cross-clamps touch the demands' limits and the joint limits alone. -/
theorem crossClamp_eq (r : Tuning) :
    r.crossClamp =
      { r with
        udamp := min r.udamp r.umax
        usafe := min r.usafe r.umax
        jmin := if r.jmin < r.jmax then r.jmin else if r.jmin = int32Max then int32Max - 1 else r.jmin
        jmax := if r.jmin < r.jmax then r.jmax else if r.jmin = int32Max then int32Max else r.jmin + 1 } := by
  unfold Tuning.crossClamp
  dsimp only
  split
  · rfl
  · split <;> rfl

theorem field_crossClamp (r : Tuning) {n : Nat} (h : n ≠ 8 ∧ n ≠ 13 ∧ n ≠ 14 ∧ n ≠ 21) : r.crossClamp.field n = r.field n := by
  obtain ⟨h8, h13, h14, h21⟩ := h
  rw [crossClamp_eq]
  unfold Tuning.field
  split <;> first | rfl | contradiction

/-- A field whose loaded value is clamped to its own range, whatever the others hold. -/
def plainField (n : Nat) : Bool :=
  decide (n < 30) && !([4, 6, 8, 13, 14, 21, 23, 24, 27, 28] : List Nat).contains n

theorem loadedField_plain {n : Nat} (h : plainField n = true) (x : Int) :
    loadedField n x = max (fieldBounds n).1 (min x (fieldBounds n).2) := by
  have hbounds : (fieldBounds n).1 ≤ (fieldBounds n).2 := by unfold fieldBounds; split <;> decide
  have hclamp : loadedField n x = clampInt x (fieldBounds n).1 (fieldBounds n).2 := by
    unfold loadedField
    split <;> first | rfl | cases h
  rw [hclamp, clampInt_eq_max_min hbounds, min_comm]

theorem field_loaded_plain (v : Nat → Int) {n : Nat} (h : plainField n = true) :
    (Tuning.loadedFields v).crossClamp.field n = max (fieldBounds n).1 (min (v n) (fieldBounds n).2) := by
  have hplain := h
  unfold plainField at hplain
  rw [Bool.and_eq_true, decide_eq_true_eq, Bool.not_eq_true', List.contains_eq_mem, decide_eq_false_iff_not] at hplain
  obtain ⟨hn, hmem⟩ := hplain
  have hne : n ≠ 8 ∧ n ≠ 13 ∧ n ≠ 14 ∧ n ≠ 21 := by
    refine ⟨?_, ?_, ?_, ?_⟩ <;> (rintro rfl; exact hmem (by decide))
  rw [field_crossClamp _ hne, field_loadedFields v hn, loadedField_plain h]

theorem toInt_word_bounds (w : Word) : int32Min ≤ w.toInt ∧ w.toInt ≤ int32Max := by
  have hlow := BitVec.le_toInt w
  have hhigh := BitVec.toInt_lt (x := w)
  unfold int32Min int32Max
  norm_num at hlow hhigh
  omega

theorem boolInt_inj {a b : Bool} : boolInt a = boolInt b ↔ a = b := by cases a <;> cases b <;> decide

/-- The fields with values of their own, in a loaded record. -/
theorem loadedTuning_named (v : Nat → Int) :
    let r := (Tuning.loadedFields v).crossClamp
    r.ffSign = (if v 4 < 0 then -1 else 1) ∧ r.n = (if 8 ≤ v 6 then 8 else if 4 ≤ v 6 then 4 else if 2 ≤ v 6 then 2 else 1) ∧
    r.killTiming = (if v 23 = 0 then .immediate else .next) ∧ r.killEffect = (if v 24 = 0 then .halt else .pause) ∧
    r.markUp = decide (v 27 = 0) ∧ r.markDown = decide (v 28 = 0) := by
  intro r
  have hfield (n : Nat) (hn : n < 30) (h : n ≠ 8 ∧ n ≠ 13 ∧ n ≠ 14 ∧ n ≠ 21) : r.field n = loadedField n (v n) :=
    (field_crossClamp _ h).trans (field_loadedFields v hn)
  have hn : (r.n : Int) = if v 6 < 2 then 1 else if v 6 < 4 then 2 else if v 6 < 8 then 4 else 8 :=
    hfield 6 (by omega) (by omega)
  have htiming : decide (r.killTiming = .next) = decide (v 23 ≠ 0) := boolInt_inj.1 (hfield 23 (by omega) (by omega))
  have heffect : decide (r.killEffect = .pause) = decide (v 24 ≠ 0) := boolInt_inj.1 (hfield 24 (by omega) (by omega))
  refine ⟨hfield 4 (by omega) (by omega), ?_, ?_, ?_, boolInt_inj.1 (hfield 27 (by omega) (by omega)),
    boolInt_inj.1 (hfield 28 (by omega) (by omega))⟩
  · split_ifs at hn ⊢ <;> omega
  · rw [decide_eq_decide] at htiming
    split
    · next h => cases hk : r.killTiming <;> simp_all
    · next h => exact htiming.2 h
  · rw [decide_eq_decide] at heffect
    split
    · next h => cases hk : r.killEffect <;> simp_all
    · next h => exact heffect.2 h

/-- The demands' limits in a loaded record. -/
theorem loadedTuning_limits (v : Nat → Int) :
    let r := (Tuning.loadedFields v).crossClamp
    (r.udamp : Int) = max 0 (min (v 8) r.umax) ∧ (r.usafe : Int) = max 0 (min (v 21) r.umax) := by
  have hbound (n : Nat) (hn : n < 30) := field_loadedFields v hn
  have hclamp (x : Int) : clampInt x 0 2000 = max 0 (min 2000 x) := clampInt_eq_max_min (by decide : (0 : Int) ≤ 2000) x
  have humax : ((Tuning.loadedFields v).umax : Int) ≤ 2000 := (bounds_of_fieldInRange (hbound 7 (by omega) ▸ fieldInRange_loadedField 7 _)).2
  have hudamp : ((Tuning.loadedFields v).udamp : Int) = max 0 (min 2000 (v 8)) := (hbound 8 (by omega)).trans (hclamp _)
  have husafe : ((Tuning.loadedFields v).usafe : Int) = max 0 (min 2000 (v 21)) := (hbound 21 (by omega)).trans (hclamp _)
  rw [crossClamp_eq]
  dsimp only
  omega

/-- The joint limits in a loaded record, of values that fit 32 bits. -/
theorem loadedTuning_joints {v : Nat → Int} (hv : ∀ n, int32Min ≤ v n ∧ v n ≤ int32Max) :
    let r := (Tuning.loadedFields v).crossClamp
    (v 13 < v 14 → r.jmin = v 13 ∧ r.jmax = v 14) ∧
    (v 14 ≤ v 13 → v 13 ≠ 2147483647 → r.jmin = v 13 ∧ r.jmax = v 13 + 1) ∧
    (v 14 ≤ v 13 → v 13 = 2147483647 → r.jmin = 2147483646 ∧ r.jmax = 2147483647) := by
  have hclamp (n : Nat) : clampInt (v n) int32Min int32Max = v n := by
    have := hv n
    rw [clampInt_eq_max_min (by decide)]
    omega
  have hjmin : (Tuning.loadedFields v).jmin = v 13 := (field_loadedFields v (n := 13) (by omega)).trans (hclamp 13)
  have hjmax : (Tuning.loadedFields v).jmax = v 14 := (field_loadedFields v (n := 14) (by omega)).trans (hclamp 14)
  rw [crossClamp_eq]
  dsimp only
  rw [hjmin, hjmax]
  unfold int32Max
  refine ⟨fun h => ?_, fun h hne => ?_, fun h he => ?_⟩
  · rw [if_pos h, if_pos h]
    exact ⟨rfl, rfl⟩
  · rw [if_neg (Int.not_lt.2 h), if_neg (Int.not_lt.2 h), if_neg hne, if_neg hne]
    exact ⟨rfl, rfl⟩
  · rw [if_neg (Int.not_lt.2 h), if_neg (Int.not_lt.2 h), if_pos he, if_pos he]
    exact ⟨rfl, rfl⟩

/-! ### STORE_LOAD (R189) -/

theorem loadSlot_good {s : State} {k : Nat} (h : badIndices (s.slot k).image = []) :
    s.loadSlot k = (s.applyImage (s.slot k).image, .ok, 0) := by
  unfold State.loadSlot
  dsimp only
  rw [h]

theorem loadSlot_bad {s : State} {k last : Nat} (h : (badIndices (s.slot k).image).getLast? = some last) :
    s.loadSlot k =
      (if s.cl.setup.strictLoad then (s.reportParity k last, .parity, (badIndices (s.slot k).image).length)
      else ((s.reportParity k last).applyImage (s.slot k).image, .okParity, (badIndices (s.slot k).image).length)) := by
  unfold State.loadSlot
  dsimp only
  cases hb : badIndices (s.slot k).image with
  | nil =>
    rw [hb] at h
    cases h
  | cons b bs =>
    have hlast : (b :: bs).getLastD b = last := by
      rw [hb, List.getLast?_cons] at h
      rw [List.getLastD_cons, List.getLastD_eq_getLast?]
      exact Option.some.inj h
    dsimp only
    rw [hlast]
    rfl

theorem serveStoreLoad_valid {s : State} {slot : Byte} (h1 : slot.toNat ≤ 7) (h2 : s.ps.busy = .idle) (h3 : (s.slot slot.toNat).state = .valid) :
    serveStoreLoad s slot =
      ⟨(s.loadSlot slot.toNat).1, (s.loadSlot slot.toNat).2.1, natHalfBytes (s.loadSlot slot.toNat).2.2⟩ :=
  (if_neg (Nat.not_lt.2 h1)).trans ((if_neg (not_not.2 h2)).trans (if_neg (not_not.2 h3)))

/-- The reply of a load that found bad words carries their number. -/
theorem loadReply_parity (tag : Byte) (n : Nat) :
    (⟨0x2B + 0x80, tag, Status.parity.code :: (if Status.parity.carriesItems then natHalfBytes n else [])⟩ : Frame) =
        ⟨0xAB, tag, 0x1B :: halfBytes (BitVec.ofNat 16 n)⟩ ∧
      (⟨0x2B + 0x80, tag, Status.okParity.code :: (if Status.okParity.carriesItems then natHalfBytes n else [])⟩ : Frame) =
        ⟨0xAB, tag, 0x02 :: halfBytes (BitVec.ofNat 16 n)⟩ := ⟨rfl, rfl⟩

theorem applyImage_tuning (s : State) (img : Image) (k : Axis) :
    ((s.applyImage img).axis k).staged.ok = true ∧ ((s.applyImage img).axis k).swapPending = true ∧
      (s.sw.running = false → ((s.applyImage img).axis k).active = (s.axis k).active) := by
  have hkept := tuningKept_settle (s.writeImage img) []
  have haxis := writeImage_axis s img k
  have hsw : (s.writeImage img).sw = s.sw := by rw [writeImage_parts]; rfl
  refine ⟨?_, ?_, fun h => ?_⟩
  · rw [State.applyImage, hkept.staged, haxis]
    exact ok_loadedTuning _ _
  · rw [State.applyImage, hkept.swap, haxis]
  · rw [State.applyImage, (hkept.active (by rw [hsw]; exact h)).2, haxis]

/-- Settles O50: the request by its checks and the image's parity, the image part by part, and the record it loads. -/
theorem storeLoadChecksParity : Obligations.StoreLoadChecksParity := by
  refine ⟨fun tag slot s h => ?_, fun s img => ?_, fun img q => ?_⟩
  · intro a img bad request
    refine ⟨fun h1 => exec_served (r := .storeLoad slot) h (if_pos h1), fun h1 h2 => ?_, fun h1 h2 h3 => ?_, fun h1 h2 h3 => ⟨fun hb => ⟨?_, ?_⟩, fun last hl => ?_⟩⟩
    · exact exec_served (r := .storeLoad slot) h ((if_neg (Nat.not_lt.2 h1)).trans (if_pos h2))
    · exact exec_served (r := .storeLoad slot) h
        ((if_neg (Nat.not_lt.2 h1)).trans ((if_neg (not_not.2 h2)).trans (if_pos h3)))
    · have hserve : serveStoreLoad a slot = ⟨a.applyImage img, .ok, natHalfBytes 0⟩ := by
        rw [serveStoreLoad_valid (s := a) h1 h2 h3, loadSlot_good (s := a) hb]
        rfl
      exact exec_served (r := .storeLoad slot) h hserve
    · exact applyImage_tuning a img
    · intro t
      have hload : a.loadSlot slot.toNat = (if s.cl.setup.strictLoad then (t, .parity, bad.length) else (t.applyImage img, .okParity, bad.length)) :=
        loadSlot_bad (s := a) hl
      have hserve := serveStoreLoad_valid (s := a) h1 h2 h3
      rw [hload] at hserve
      generalize bad.length = m at hserve ⊢
      split
      · next hs =>
        rw [if_pos hs] at hserve
        exact exec_served (r := .storeLoad slot) h hserve (hf := (loadReply_parity tag m).1)
      · next hs =>
        rw [if_neg hs] at hserve
        exact exec_served (r := .storeLoad slot) h hserve (hf := (loadReply_parity tag m).2)
  · intro w setup silent limit
    have hw : w = _ := writeImage_parts s img
    have hms : w.ms = (s.imageParts img).ms := (congrArg State.ms hw).trans rfl
    have hsource (src : Source) : w.source src = (s.imageParts img).source src := (congrArg (fun t : State => t.source src) hw).trans rfl
    have hsi : w.si = _ := congrArg State.si hw
    refine ⟨rfl, writeImage_axis s img, fun i old hi => ?_, fun p hp => ?_, fun src => ?_, congrArg State.cl hw, fun u => ?_, fun k => ?_,
      ?_, ?_, ?_⟩
    · rw [hms]
      exact (List.getElem?_mapIdx ..).trans (congrArg (Option.map _) hi)
    · rw [hms]
      exact loadedLocks s.ms.locks _ hp
    · rw [hsource, imageParts_source]
    · rw [hsi, rejudged_sen]
      cases u <;> rfl
    · rw [hsi, rejudged_enc]
      cases k <;> rfl
    · rw [hms]
      rfl
    · rw [hms]
      exact List.length_mapIdx ..
    · rw [hw]
      rfl
  · intro v r within ranges
    have hr : r = (Tuning.loadedFields v).crossClamp := loadedTuning_eq img q
    have hv (n : Nat) : int32Min ≤ v n ∧ v n ≤ int32Max := toInt_word_bounds _
    have hplain : ∀ x ∈ ranges, plainField x.1 = true ∧ fieldBounds x.1 = x.2 := by decide +revert
    obtain ⟨h1, h2, h3, h4, h5, h6⟩ := loadedTuning_named v
    obtain ⟨h7, h8⟩ := loadedTuning_limits v
    rw [hr]
    refine ⟨fun x hx => ?_, h1, h2, h3, h4, h5, h6, h7, h8, loadedTuning_joints hv⟩
    obtain ⟨hp, hb⟩ := hplain x hx
    rw [field_loaded_plain v hp, hb]

end Sys2Proof.Machine
end

section
/-! PROOFS. O51: where the parts of a captured image stand (R182), and each part loaded back from its words (R190). -/

namespace Sys2Proof.Machine

/-! ### Words in blocks of one length -/

theorem getElem?_flatMap_blocks {α β : Type} {f : α → List β} {c : Nat} (hlen : ∀ a, (f a).length = c) {j : Nat} (hj : j < c) :
    ∀ {l : List α} {i : Nat} {a : α}, l[i]? = some a → (l.flatMap f)[c * i + j]? = (f a)[j]?
  | b :: l, 0, a, h => by
    obtain rfl : b = a := Option.some.inj h
    rw [List.flatMap_cons, Nat.mul_zero, Nat.zero_add, List.getElem?_append_left (by rw [hlen]; exact hj)]
  | b :: l, i + 1, a, h => by
    have hrest := getElem?_flatMap_blocks hlen hj (l := l) (i := i) (a := a) h
    rw [List.flatMap_cons, List.getElem?_append_right (by rw [hlen, Nat.mul_succ]; omega), hlen,
      show c * (i + 1) + j - c = c * i + j by rw [Nat.mul_succ]; omega]
    exact hrest

theorem length_flatMap_blocks {α β : Type} {f : α → List β} {c : Nat} (hlen : ∀ a, (f a).length = c) (l : List α) :
    (l.flatMap f).length = c * l.length := by
  induction l with
  | nil => rfl
  | cons a l ih => rw [List.flatMap_cons, List.length_append, hlen, ih, List.length_cons, Nat.mul_succ, Nat.add_comm]

theorem getElem?_allAxes (k : Axis) : allAxes[axisIndex k]? = some k := by cases k <;> rfl

theorem length_wordHalves (x : Word) : (wordHalves x).length = 2 := rfl

theorem length_tuningWords (r : Tuning) : (tuningWords r).length = 60 :=
  length_flatMap_blocks (fun _ => length_wordHalves _) (List.range 30)

theorem length_waypointWords (w : Waypoint) : (waypointWords w).length = 11 :=
  congrArg (· + 1) (length_flatMap_blocks (fun _ => length_wordHalves _) allAxes)

/-! ### Where each part of a capture stands -/

/-- The words of a captured image, each part behind those before it. -/
theorem capturedWords_parts (s : State) :
    capturedWords s =
      allAxes.flatMap (fun k => tuningWords (s.axis k).active) ++ (s.ms.waypoints.flatMap waypointWords ++ ([s.ms.locks.setWidth 16] ++
        (allSources.map (fun src => configWord (s.source src)) ++ (s.ms.cueSources.map selectorWord ++ setupWords s.cl.setup)))) := by
  simp only [capturedWords, List.append_assoc]

theorem length_tunings (s : State) : (allAxes.flatMap (fun k => tuningWords (s.axis k).active)).length = 300 :=
  length_flatMap_blocks (fun _ => length_tuningWords _) allAxes

theorem capturedWords_tuning (s : State) (k : Axis) {j : Nat} (hj : j < 60) :
    (capturedWords s)[60 * axisIndex k + j]? = (tuningWords (s.axis k).active)[j]? := by
  have hk : axisIndex k < 5 := by cases k <;> decide
  rw [capturedWords_parts, List.getElem?_append_left (by rw [length_tunings]; omega)]
  exact getElem?_flatMap_blocks (fun _ => length_tuningWords _) hj (getElem?_allAxes k)

/-- Behind the tuning records. -/
theorem capturedWords_behind_tunings (s : State) (i : Nat) :
    (capturedWords s)[300 + i]? =
      (s.ms.waypoints.flatMap waypointWords ++ ([s.ms.locks.setWidth 16] ++ (allSources.map (fun src => configWord (s.source src)) ++
        (s.ms.cueSources.map selectorWord ++ setupWords s.cl.setup))))[i]? := by
  rw [capturedWords_parts, List.getElem?_append_right (by rw [length_tunings]; omega), length_tunings, Nat.add_sub_cancel_left]

theorem capturedWords_waypoint {s : State} {i : Nat} {w : Waypoint} (hw : s.ms.waypoints[i]? = some w) {j : Nat} (hj : j < 11) :
    (capturedWords s)[300 + (11 * i + j)]? = (waypointWords w)[j]? := by
  have hi := (List.getElem?_eq_some_iff.1 hw).1
  rw [capturedWords_behind_tunings,
    List.getElem?_append_left (by rw [length_flatMap_blocks length_waypointWords]; omega)]
  exact getElem?_flatMap_blocks length_waypointWords hj hw

/-- Behind the 64 waypoints. -/
theorem capturedWords_behind_waypoints {s : State} (h : s.ms.waypoints.length = 64) (i : Nat) :
    (capturedWords s)[1004 + i]? =
      ([s.ms.locks.setWidth 16] ++ (allSources.map (fun src => configWord (s.source src)) ++
        (s.ms.cueSources.map selectorWord ++ setupWords s.cl.setup)))[i]? := by
  have hlen : (s.ms.waypoints.flatMap waypointWords).length = 704 := by rw [length_flatMap_blocks length_waypointWords, h]
  rw [show 1004 + i = 300 + (704 + i) by omega, capturedWords_behind_tunings, List.getElem?_append_right (by rw [hlen]; omega), hlen,
    Nat.add_sub_cancel_left]

theorem capturedWords_locks {s : State} (h : s.ms.waypoints.length = 64) :
    (capturedWords s)[1004]? = some (s.ms.locks.setWidth 16) := capturedWords_behind_waypoints h 0

/-- Behind the locks. -/
theorem capturedWords_behind_locks {s : State} (h : s.ms.waypoints.length = 64) (i : Nat) :
    (capturedWords s)[1005 + i]? =
      (allSources.map (fun src => configWord (s.source src)) ++ (s.ms.cueSources.map selectorWord ++ setupWords s.cl.setup))[i]? := by
  rw [show 1005 + i = 1004 + (i + 1) by omega, capturedWords_behind_waypoints h]
  rfl

theorem length_configWords (s : State) : (allSources.map (fun src => configWord (s.source src))).length = 26 := by
  rw [List.length_map]; rfl

theorem capturedWords_source {s : State} (h : s.ms.waypoints.length = 64) (src : Source) :
    (capturedWords s)[1005 + sourceNumber src]? = some (configWord (s.source src)) := by
  have hsrc : allSources[sourceNumber src]? = some src := sourceOfNumber_sourceNumber src
  rw [capturedWords_behind_locks h, List.getElem?_append_left (by rw [List.length_map]; exact sourceNumber_lt src), List.getElem?_map,
    hsrc]
  rfl

/-- Behind the alert configuration. -/
theorem capturedWords_behind_sources {s : State} (h : s.ms.waypoints.length = 64) (i : Nat) :
    (capturedWords s)[1031 + i]? = (s.ms.cueSources.map selectorWord ++ setupWords s.cl.setup)[i]? := by
  rw [show 1031 + i = 1005 + (26 + i) by omega, capturedWords_behind_locks h,
    List.getElem?_append_right (by rw [length_configWords]; omega), length_configWords, Nat.add_sub_cancel_left]

theorem capturedWords_selector {s : State} (h : s.ms.waypoints.length = 64) {n : Nat} {c : Selector}
    (hc : s.ms.cueSources[n]? = some c) : (capturedWords s)[1031 + n]? = some (selectorWord c) := by
  have hn := (List.getElem?_eq_some_iff.1 hc).1
  rw [capturedWords_behind_sources h, List.getElem?_append_left (by rw [List.length_map]; exact hn), List.getElem?_map, hc]
  rfl

theorem capturedWords_setup {s : State} (h : s.ms.waypoints.length = 64) (hcues : s.ms.cueSources.length = 8) (i : Nat) :
    (capturedWords s)[1039 + i]? = (setupWords s.cl.setup)[i]? := by
  have hlen : (s.ms.cueSources.map selectorWord).length = 8 := by rw [List.length_map, hcues]
  rw [show 1039 + i = 1031 + (8 + i) by omega, capturedWords_behind_sources h, List.getElem?_append_right (by rw [hlen]; omega), hlen,
    Nat.add_sub_cancel_left]

/-! ### A capture's words read back -/

theorem capturedImage_data {s : State} {i : Nat} {h : Half} (hi : (capturedWords s)[i]? = some h) :
    ((capturedImage s).read i).data = h := by
  have hd : (capturedWords s).getD i 0 = h := by rw [List.getD_eq_getElem?_getD, hi, Option.getD_some]
  exact (congrArg StoredWord.data (Image.read_ofWords (capturedWords s) i)).trans hd

theorem wordHalves_append (x : Word) : x.extractLsb' 16 16 ++ x.extractLsb' 0 16 = x := by
  ext i hi
  simp only [BitVec.getElem_append, BitVec.getElem_extractLsb']
  split <;> simp_all

/-- Two words in sequence hold the 32-bit value whose halves they are. -/
theorem capturedImage_word {s : State} {i : Nat} {x : Word} (h0 : (capturedWords s)[i]? = (wordHalves x)[0]?)
    (h1 : (capturedWords s)[i + 1]? = (wordHalves x)[1]?) : (capturedImage s).word i = x := by
  unfold Image.word
  rw [capturedImage_data h0, capturedImage_data h1]
  exact wordHalves_append x

theorem highByte_pairHalf (a b : Byte) : highByte (pairHalf a b) = a := by
  unfold highByte pairHalf
  ext i hi
  simp only [BitVec.getElem_extractLsb', BitVec.getLsbD_append]
  simp [hi]

theorem lowByte_pairHalf (a b : Byte) : lowByte (pairHalf a b) = b := by
  unfold lowByte pairHalf
  ext i hi
  simp only [BitVec.getElem_extractLsb', BitVec.getLsbD_append]
  simp [hi]

/-! ### Tuning records -/

/-- A record is its 30 fields. -/
theorem Tuning.eq_of_field {r q : Tuning} (h : ∀ n < 30, r.field n = q.field n) : r = q := by
  have htiming : decide (r.killTiming = .next) = decide (q.killTiming = .next) := boolInt_inj.1 (h 23 (by omega))
  have heffect : decide (r.killEffect = .pause) = decide (q.killEffect = .pause) := boolInt_inj.1 (h 24 (by omega))
  have hup : r.markUp = q.markUp := boolInt_inj.1 (h 27 (by omega))
  have hdown : r.markDown = q.markDown := boolInt_inj.1 (h 28 (by omega))
  have hkt : r.killTiming = q.killTiming := by
    revert htiming; cases r.killTiming <;> cases q.killTiming <;> decide
  have hke : r.killEffect = q.killEffect := by
    revert heffect; cases r.killEffect <;> cases q.killEffect <;> decide
  have hnat {a b : Nat} (e : (a : Int) = b) : a = b := Int.ofNat.inj e
  have h0 := hnat (h 0 (by omega))
  have h1 := hnat (h 1 (by omega))
  have h2 := hnat (h 2 (by omega))
  have h3 := hnat (h 3 (by omega))
  have h4 : r.ffSign = q.ffSign := h 4 (by omega)
  have h5 := hnat (h 5 (by omega))
  have h6 := hnat (h 6 (by omega))
  have h7 := hnat (h 7 (by omega))
  have h8 := hnat (h 8 (by omega))
  have h9 := hnat (h 9 (by omega))
  have h10 := hnat (h 10 (by omega))
  have h11 := hnat (h 11 (by omega))
  have h12 := hnat (h 12 (by omega))
  have h13 : r.jmin = q.jmin := h 13 (by omega)
  have h14 : r.jmax = q.jmax := h 14 (by omega)
  have h15 := hnat (h 15 (by omega))
  have h16 := hnat (h 16 (by omega))
  have h17 := hnat (h 17 (by omega))
  have h18 := hnat (h 18 (by omega))
  have h19 := hnat (h 19 (by omega))
  have h20 := hnat (h 20 (by omega))
  have h21 := hnat (h 21 (by omega))
  have h22 := hnat (h 22 (by omega))
  have h25 := hnat (h 25 (by omega))
  have h26 : r.markAngle = q.markAngle := h 26 (by omega)
  have h29 : r.gyroBias = q.gyroBias := h 29 (by omega)
  cases r
  cases q
  simp_all

theorem fieldBounds_int32 (n : Nat) : int32Min ≤ (fieldBounds n).1 ∧ (fieldBounds n).2 ≤ int32Max := by
  unfold fieldBounds
  split <;> decide

/-- What the image holds for a field is a 32-bit value. -/
theorem imageField_bounds {r : Tuning} (h : r.fieldsOk) {n : Nat} (hn : n < 30) :
    int32Min ≤ r.imageField n ∧ r.imageField n ≤ int32Max := by
  have hbool (b : Bool) : int32Min ≤ boolInt b ∧ boolInt b ≤ int32Max := by cases b <;> decide
  have hin := bounds_of_fieldInRange (h n hn)
  have hfit := fieldBounds_int32 n
  unfold Tuning.imageField
  split
  · exact hbool _
  · exact hbool _
  · exact ⟨hfit.1.trans hin.1, hin.2.trans hfit.2⟩

theorem toInt_ofInt_int32 {x : Int} (h : int32Min ≤ x ∧ x ≤ int32Max) : (BitVec.ofInt 32 x).toInt = x := by
  unfold int32Min int32Max at h
  rw [BitVec.toInt_ofInt]
  exact Int.bmod_eq_of_le (by omega) (by omega)

/-- A field in its range is loaded back from what the image holds for it. -/
theorem loadedField_imageField {r : Tuning} (h : r.fieldsOk) {n : Nat} (hn : n < 30) : loadedField n (r.imageField n) = r.field n := by
  have hin := h n hn
  have hbounds := bounds_of_fieldInRange hin
  have hbool (b : Bool) : boolInt (decide (boolInt b ≠ 0)) = boolInt b := by cases b <;> decide
  have hflip (b : Bool) : boolInt (decide (boolInt (!b) = 0)) = boolInt b := by cases b <;> decide
  unfold loadedField
  split
  · have hv : fieldInRange 4 r.ffSign = true := hin
    simp only [fieldInRange, fieldBounds, Bool.and_eq_true, decide_eq_true_eq] at hv
    change (if r.ffSign < 0 then (-1 : Int) else 1) = r.ffSign
    split <;> omega
  · have hv : fieldInRange 6 (r.n : Int) = true := hin
    simp only [fieldInRange, Bool.and_eq_true, decide_eq_true_eq] at hv
    change (if (r.n : Int) < 2 then (1 : Int) else if (r.n : Int) < 4 then 2 else if (r.n : Int) < 8 then 4 else 8) = r.n
    split_ifs <;> omega
  · exact hbool _
  · exact hbool _
  · exact hflip _
  · exact hflip _
  · next h27 h28 =>
    have himage : r.imageField n = r.field n := by
      unfold Tuning.imageField
      split <;> first | rfl | contradiction
    rw [himage, clampInt_eq_max_min (hbounds.1.trans hbounds.2)]
    omega

/-- The cross-clamps leave a record whose cross-checks hold. -/
theorem crossClamp_of_crossOk {r : Tuning} (h : r.crossOk = true) : r.crossClamp = r := by
  simp only [Tuning.crossOk, Bool.and_eq_true, decide_eq_true_eq] at h
  obtain ⟨⟨hj, hdamp⟩, hsafe⟩ := h
  rw [crossClamp_eq, if_pos hj, if_pos hj, Nat.min_eq_left hdamp, Nat.min_eq_left hsafe]

/-- The words of a tuning record, from where field `n` stands. -/
theorem tuningWords_field (r : Tuning) {n : Nat} (hn : n < 30) {j : Nat} (hj : j < 2) :
    (tuningWords r)[2 * n + j]? = (wordHalves (BitVec.ofInt 32 (r.imageField n)))[j]? :=
  getElem?_flatMap_blocks (fun _ => length_wordHalves _) hj (List.getElem?_range hn)

theorem captured_field {s : State} {k : Axis} (h : (s.axis k).active.fieldsOk) {n : Nat} (hn : n < 30) :
    ((capturedImage s).word (60 * axisIndex k + 2 * n)).toInt = (s.axis k).active.imageField n := by
  have hword (j : Nat) (hj : j < 2) := (capturedWords_tuning s k (j := 2 * n + j) (by omega)).trans (tuningWords_field _ hn hj)
  have hvalue : (capturedImage s).word (60 * axisIndex k + 2 * n) = BitVec.ofInt 32 ((s.axis k).active.imageField n) :=
    capturedImage_word (hword 0 (by omega)) (hword 1 (by omega))
  rw [hvalue, toInt_ofInt_int32 (imageField_bounds h hn)]

theorem loadedTuning_captured {s : State} {k : Axis} (h : (s.axis k).active.ok = true) :
    loadedTuning (capturedImage s) (axisIndex k) = (s.axis k).active := by
  obtain ⟨hfields, hcross⟩ := (Tuning.ok_iff _).1 h
  have hloaded : Tuning.loadedFields (fun f => ((capturedImage s).word (60 * axisIndex k + 2 * f)).toInt) = (s.axis k).active :=
    Tuning.eq_of_field fun n hn => by rw [field_loadedFields _ hn, captured_field hfields hn, loadedField_imageField hfields hn]
  rw [loadedTuning_eq, hloaded, crossClamp_of_crossOk hcross]

/-! ### Waypoints -/

theorem waypointWords_offset (w : Waypoint) (k : Axis) {j : Nat} (hj : j < 2) :
    (waypointWords w)[2 * axisIndex k + j + 1]? = (wordHalves ((w.offsets.get k).getD 0))[j]? :=
  getElem?_flatMap_blocks (f := fun k => wordHalves ((w.offsets.get k).getD 0)) (fun _ => length_wordHalves _) hj (getElem?_allAxes k)

theorem getLsbD_maskByte (w : Waypoint) (k : Axis) : (axisSetByte w.mask).getLsbD (axisIndex k) = (w.offsets.get k).isSome := by
  have hk : axisIndex k < 8 := by cases k <;> decide
  have hbit : (axisSetByte w.mask).getLsbD (axisIndex k) = hasAxis w.mask k := by simp [axisSetByte, hasAxis, hk]
  exact hbit.trans (hasAxis_axisSetOf _ k)

/-- The offset of an axis, from its presence bit and its two words. -/
theorem loadedOffset_captured {s : State} {i : Nat} {w : Waypoint} (hw : s.ms.waypoints[i]? = some w) (k : Axis) :
    (if (highByte ((capturedImage s).read (300 + 11 * i)).data).getLsbD (axisIndex k) then
        some ((capturedImage s).word (301 + 11 * i + 2 * axisIndex k))
      else none) = w.offsets.get k := by
  have hk : axisIndex k < 5 := by cases k <;> decide
  have hfirst : ((capturedImage s).read (300 + 11 * i)).data = pairHalf (axisSetByte w.mask) w.label :=
    capturedImage_data (capturedWords_waypoint hw (j := 0) (by omega))
  have hhalf (j : Nat) (hj : j < 2) :
      (capturedWords s)[301 + 11 * i + 2 * axisIndex k + j]? = (wordHalves ((w.offsets.get k).getD 0))[j]? := by
    rw [show 301 + 11 * i + 2 * axisIndex k + j = 300 + (11 * i + (2 * axisIndex k + j + 1)) by omega,
      capturedWords_waypoint hw (by omega), waypointWords_offset w k hj]
  have hvalue : (capturedImage s).word (301 + 11 * i + 2 * axisIndex k) = (w.offsets.get k).getD 0 :=
    capturedImage_word (hhalf 0 (by omega)) (hhalf 1 (by omega))
  rw [hfirst, highByte_pairHalf, getLsbD_maskByte, hvalue]
  cases w.offsets.get k <;> rfl

theorem loadedWaypoint_captured {s : State} {i : Nat} {w : Waypoint} (hw : s.ms.waypoints[i]? = some w) :
    loadedWaypoint (capturedImage s) i = w := by
  have hfirst : ((capturedImage s).read (300 + 11 * i)).data = pairHalf (axisSetByte w.mask) w.label :=
    capturedImage_data (capturedWords_waypoint hw (j := 0) (by omega))
  have hoffset := loadedOffset_captured hw
  have hlabel : lowByte ((capturedImage s).read (300 + 11 * i)).data = w.label := by rw [hfirst, lowByte_pairHalf]
  unfold loadedWaypoint
  dsimp only
  rw [hlabel, hoffset .swing, hoffset .lift, hoffset .pan, hoffset .tilt, hoffset .roll]
  rfl

/-! ### The alert configuration, the cue table and the setup record -/

theorem loadedConfig_captured {s : State} (h : s.ms.waypoints.length = 64) (src : Source) :
    loadedConfig (capturedImage s) src = ⟨src, (s.source src).level, (s.source src).enable, (s.source src).latched⟩ := by
  have hlevel (l : Level) : (if (levelByte l).toNat ≤ 1 then Level.one else .two) = l := by cases l <;> rfl
  have hnibbles (l : Level) (e b : Bool) :
      let w := pairHalf (levelByte l) ((if e then (16 : Byte) else 0) ||| flagBit 0 b)
      (w.extractLsb' 4 4 != (0 : BitVec 4)) = e ∧ (w.extractLsb' 0 4 != (0 : BitVec 4)) = b := by
    cases l <;> cases e <;> cases b <;> decide
  obtain ⟨henable, hlatched⟩ := hnibbles (s.source src).level (s.source src).enable (s.source src).latched
  unfold loadedConfig
  rw [capturedImage_data (capturedWords_source h src)]
  unfold configWord
  dsimp only at henable hlatched ⊢
  rw [highByte_pairHalf, hlevel, henable, hlatched]

theorem loadedSelector_selectorWord (c : Selector) : loadedSelector (highByte (selectorWord c)) (lowByte (selectorWord c)) = c := by
  rcases c with _ | k | k | l | _ | l
  · decide
  · cases k <;> decide
  · cases k <;> decide
  · cases l <;> decide
  · decide
  · cases l <;> decide

theorem loadedTable_captured {s : State} (h : s.ms.waypoints.length = 64) (hcues : s.ms.cueSources.length = 8) :
    loadedTable (capturedImage s) = s.ms.cueSources := by
  unfold loadedTable
  refine List.ext_getElem (by rw [hcues]; rfl) fun n _ hn => ?_
  rw [List.getElem_map, List.getElem_range]
  dsimp only
  rw [capturedImage_data (capturedWords_selector h (List.getElem?_eq_getElem hn)), loadedSelector_selectorWord]

theorem clampNat_of_mem {x lo hi : Nat} (h : lo ≤ x ∧ x ≤ hi) : clampNat x lo hi = x := by unfold clampNat; omega

theorem toNat_halfOfNat_of_le {n : Nat} (h : n ≤ 65535) : (halfOfNat n).toNat = n := by
  rw [halfOfNat, BitVec.toNat_ofNat, Nat.mod_eq_of_lt (by omega)]

/-- A loaded setup record, field by field of its words. -/
theorem loadedSetup_of_fields {img : Image} {f : Nat → Nat} (hf : ∀ i, (img.read (1039 + i)).data.toNat = f i) {x : Setup}
    (h0 : clampNat (f 0) 20 2000 = x.silenceLimit) (h1 : clampNat (f 1) 1 64 = x.staleLimit.base)
    (h2 : clampNat (f 2) 1 64 = x.staleLimit.tip) (h3 : clampNat (f 3) 1 64 = x.staleLimit.head)
    (h4 : clampNat (f 4) 10 500 = x.gravBand) (h5 : clampNat (f 5) 1 15 = x.driverMissLimit)
    (h6 : decide (f 6 ≠ 0) = x.strictLoad) : loadedSetup img = x := by
  unfold loadedSetup
  simp only [hf]
  rw [h0, h1, h2, h3, h4, h5, h6]

theorem loadedSetup_captured {s : State} (h : s.ms.waypoints.length = 64) (hcues : s.ms.cueSources.length = 8)
    (hsilence : 20 ≤ s.cl.setup.silenceLimit ∧ s.cl.setup.silenceLimit ≤ 2000)
    (hstale : ∀ u, 1 ≤ s.cl.setup.staleLimit.get u ∧ s.cl.setup.staleLimit.get u ≤ 64)
    (hgrav : 10 ≤ s.cl.setup.gravBand ∧ s.cl.setup.gravBand ≤ 500)
    (hmiss : 1 ≤ s.cl.setup.driverMissLimit ∧ s.cl.setup.driverMissLimit ≤ 15) :
    loadedSetup (capturedImage s) = s.cl.setup := by
  have hword {i : Nat} {v : Half} (hv : (setupWords s.cl.setup)[i]? = some v) : ((capturedImage s).read (1039 + i)).data = v :=
    capturedImage_data ((capturedWords_setup h hcues i).trans hv)
  have hnum {i n lo hi : Nat} (hv : (setupWords s.cl.setup)[i]? = some (halfOfNat n)) (hn : lo ≤ n ∧ n ≤ hi) (hhi : hi ≤ 65535) :
      clampNat ((capturedImage s).read (1039 + i)).data.toNat lo hi = n := by
    rw [hword hv, toNat_halfOfNat_of_le (hn.2.trans hhi), clampNat_of_mem hn]
  have hstrict (b : Bool) : decide ((if b then (1 : Half) else 0).toNat ≠ 0) = b := by cases b <;> decide
  have hflag : decide (((capturedImage s).read (1039 + 6)).data.toNat ≠ 0) = s.cl.setup.strictLoad := by
    rw [hword (i := 6) (by rfl), hstrict]
  exact loadedSetup_of_fields (f := fun i => ((capturedImage s).read (1039 + i)).data.toNat) (fun _ => rfl)
    (hnum (by rfl) hsilence (by decide)) (hnum (by rfl) (hstale .base) (by decide)) (hnum (by rfl) (hstale .tip) (by decide))
    (hnum (by rfl) (hstale .head) (by decide)) (hnum (by rfl) hgrav (by decide)) (hnum (by rfl) hmiss (by decide)) hflag

/-- Settles O51: each part of a capture stands at its place in the image, and each is the inverse of its load. -/
theorem capturedProfileLoadsBack : Obligations.CapturedProfileLoadsBack := by
  unfold Obligations.CapturedProfileLoadsBack
  rintro s htuning hwaypoints hcues - ⟨hsil0, hsil1, hstale, hgrav0, hgrav1, hmiss0, hmiss1⟩
  refine ⟨fun i => ?_, fun k => loadedTuning_captured (htuning k), fun i w hw => loadedWaypoint_captured hw, ?_,
    loadedConfig_captured hwaypoints, loadedTable_captured hwaypoints hcues,
    loadedSetup_captured hwaypoints hcues ⟨hsil0, hsil1⟩ hstale ⟨hgrav0, hgrav1⟩ ⟨hmiss0, hmiss1⟩⟩
  · exact (congrArg badWord (Image.read_ofWords (capturedWords s) i)).trans (badWord_goodWord _)
  · rw [capturedImage_data (capturedWords_locks hwaypoints)]
    exact BitVec.setWidth_setWidth_of_le _ (by decide)

end Sys2Proof.Machine
end
